-- ==== Sys2Proof/Word.lean ====
section
/-! DEFINITION. The machine's word types: 8-bit bytes, 32-bit registers (00_scope R8), 64-bit quantities
(10_state R36), binary64 patterns (00_scope R10) and 12-bit bus addresses (20_memory R100). -/

namespace Sys2Proof

/-- A byte of the serial stream or of the packet buffer (`u8`, 00_scope R9). -/
abbrev Byte := BitVec 8

/-- A 32-bit register, bus datum or command word (`u32`, 00_scope R8 and R9). -/
abbrev Word := BitVec 32

/-- A 64-bit quantity, seen by the host as a LO/HI register pair (10_state R36). -/
abbrev DWord := BitVec 64

/-- The 64-bit pattern of a binary64 datum (00_scope R10). -/
abbrev F64 := BitVec 64

/-- A byte address inside the 4 KiB register window (20_memory R100). -/
abbrev Addr := BitVec 12

end Sys2Proof
end

