-- ==== Sys2Proof/Syntax.lean ====
section
/-! DEFINITION. The syntax: the 14 commands of 30_encoding R156, the registers of 10_state R36, the host's bus
accesses (44_general R412, R413), what the environment does in one cycle (00_scope R5), and the host notation
of 30_encoding R159 and R160. -/

namespace Sys2Proof

/-- The 14 commands of 30_encoding R156, one constructor per row of the opcode table. No command word carries an
operand: the operands are in ARG0, ARG1 and the CTU operand registers (R150, R153). -/
inductive Instr where
  /-- NOP, OPC 0x00, 44_general R410. -/
  | nop
  /-- PKT_READ, OPC 0x10, 40_packet_validator R205. -/
  | pktRead
  /-- PKT_CHECK, OPC 0x11, 40_packet_validator R207. -/
  | pktCheck
  /-- SET_RES, OPC 0x20, 41_stepper_drive R262. -/
  | setRes
  /-- SET_SPEED, OPC 0x21, 41_stepper_drive R263. -/
  | setSpeed
  /-- SET_CORR, OPC 0x22, 41_stepper_drive R264. -/
  | setCorr
  /-- TURN, OPC 0x23, 41_stepper_drive R267. -/
  | turn
  /-- SET_RINGS, OPC 0x30, 42_sweep_sequencer R320. -/
  | setRings
  /-- SET_PREROT, OPC 0x31, 42_sweep_sequencer R321. -/
  | setPrerot
  /-- SET_RTO, OPC 0x32, 42_sweep_sequencer R322. -/
  | setRto
  /-- SWEEP_START, OPC 0x33, 42_sweep_sequencer R324. -/
  | sweepStart
  /-- RING_DONE, OPC 0x34, 42_sweep_sequencer R325. -/
  | ringDone
  /-- SWEEP_CANCEL, OPC 0x35, 42_sweep_sequencer R326. -/
  | sweepCancel
  /-- CTU_XFORM, OPC 0x40, 43_coordinate_transform R382. -/
  | ctuXform
deriving DecidableEq, Repr

/-- The five microstep presets, the values MSCODE can take (41_stepper_drive R260). -/
inductive Preset where
  | full
  | half
  | quarter
  | eighth
  | sixteenth
deriving DecidableEq, Repr

/-- A turn's direction (TURN_DIR, 10_state R77): CW is code 0, CCW is code 1. -/
inductive Dir where
  | cw
  | ccw
deriving DecidableEq, Repr

/-- The registers of the map of 10_state R36; `pktbufW k` is PKTBUF_Wk and `sample i` is SAMPLE_i. -/
inductive Reg where
  | id | cmd | arg0 | arg1 | result | status | err | irqEn | irqPend | swphase
  | rxCount | pktStatus | resyncCnt | pktOkCnt | pktErrCnt | crcCalc
  | fHdr | fSpeed | fStart | fEnd | fTime
  | pktbufW (k : Fin 12)
  | sample (i : Fin 12)
  | res | speed | corrLo | corrHi | posLo | posHi | angleLo | angleHi
  | stepCntLo | stepCntHi | half | turnNLo | turnNHi
  | rings | prerot | rto | spring | ringIdx | failRing | sweepAccLo | sweepAccHi
  | rhoLo | rhoHi | phiLo | phiHi | thetaLo | thetaHi | offsetLo | offsetHi
  | xLo | xHi | yLo | yHi | zLo | zHi
deriving DecidableEq, Repr

/-- One access of the host to the register window. `size` is the width in bytes, the second argument of MemRead
and MemWrite (00_scope R11); only size 4 has a meaning (20_memory R104). -/
inductive BusAccess where
  /-- `MemRead(addr, size)`. -/
  | read (addr : Addr) (size : Nat)
  /-- `MemWrite(addr, size, value)`. -/
  | write (addr : Addr) (size : Nat) (value : Word)
deriving DecidableEq, Repr

/-- What the environment does in one clock cycle (00_scope R5): the reset input, at most one access of the host,
and at most one byte of the receiver. -/
structure CycleInput where
  /-- RST is asserted in this cycle (70_reset_and_hazards R490). -/
  rst : Bool
  /-- The host's access in this cycle, if it makes one (44_general R419). -/
  access : Option BusAccess
  /-- The byte the receiver delivers in this cycle, if it delivers one (40_packet_validator R200). -/
  rx : Option Byte
deriving DecidableEq, Repr

/-- A cycle in which the environment does nothing. -/
def CycleInput.idle : CycleInput := ⟨false, none, none⟩

/-- A 64-bit register named without its LO/HI suffix, as the host notation names it (30_encoding R159). -/
inductive Reg64 where
  | corr | pos | angle | stepCnt | turnN | sweepAcc
  | rho | phi | theta | offset | x | y | z
deriving DecidableEq, Repr

/-- The pseudo-instructions of 30_encoding R160. -/
inductive Pseudo where
  | nop
  | pktRead
  | pktCheck
  | setRes (name : Preset)
  | setSpeed (m : Word)
  | setCorr (f : F64)
  | turn (dir : Dir) (n : Word)
  | setRings (n : Word)
  | setPrerot (n : Word)
  | setRto (n : Word)
  | sweepStart
  | ringDone
  | sweepCancel
  | ctuXform
  | wr64 (reg : Reg64) (f : F64)
  | rd64 (reg : Reg64)
  | pktLoad (bytes : List Byte)
deriving DecidableEq, Repr

/-- The six statements of the host notation (30_encoding R159). -/
inductive HostStmt where
  | wr (reg : Reg) (v : Word)
  | rd (reg : Reg)
  | poll (reg : Reg) (mask val : Word)
  | wait (n : Nat)
  | rx (bytes : List Byte)
  | pseudo (p : Pseudo)
deriving DecidableEq, Repr

end Sys2Proof
end

