-- ==== Sys2Proof/Config.lean ====
section
/-! DEFINITION. What an implementation fixes (00_scope R7, 20_memory R109) and the free values. The parameters that are
plain data (P_FCLK, P_RXQ_DEPTH, P_CRC_TABLE, P_MS_TABLE, P_CTU_EPS, P_BASE) are a record that State carries and no step
changes (notes/assumptions/2.md), so that every statement holds for every value of them. What is a function
(P_CTU_FN) or a sign that the spec leaves open is an opaque constant: nothing in Lean can evaluate it. -/

namespace Sys2Proof

/-- P_MS_TABLE (00_scope R7, 41_stepper_drive R260): the selector triple of each preset, MS1 at bit 0, MS2 at
bit 1 and MS3 at bit 2, as STATUS and RES show them (10_state R42, R56). -/
structure MsTable where
  full : BitVec 3
  half : BitVec 3
  quarter : BitVec 3
  eighth : BitVec 3
  sixteenth : BitVec 3
deriving DecidableEq, Repr

/-- The parameters of 00_scope R7 and 20_memory R109 that are plain data. -/
structure Params where
  /-- P_FCLK: the clock frequency in Hz, a positive integer, OPEN (notes/assumptions/3.md). -/
  fclk : Nat
  /-- P_RXQ_DEPTH: the capacity of RXQ in bytes, at least 47 (notes/assumptions/6.md). -/
  rxqDepth : Nat
  /-- P_CRC_TABLE: the 256 entries of the CRC-8 table (notes/assumptions/4.md). -/
  crcTable : List Byte
  /-- P_MS_TABLE: the selector triples (notes/assumptions/5.md). -/
  msTable : MsTable
  /-- P_CTU_EPS: the error bound of the coordinate transform (43_coordinate_transform R381). -/
  ctuEps : ℚ
  /-- P_BASE: the address of the register window in the host's address space, OPEN, which no rule of the block reads
  (20_memory R109; notes/assumptions/28.md). -/
  base : Nat
deriving DecidableEq, Repr

/-- The three results of the coordinate transform (43_coordinate_transform R380). -/
inductive CtuComp where
  | x
  | y
  | z
deriving DecidableEq, Repr

/-- A member of a type that is known to have one, and nothing more is known of it: the definition calls itself only.
It stands where Lean asks for a member before it accepts a free value of the type. -/
def Config.anyMember {α : Type} [Nonempty α] (u : Unit) : α := Config.anyMember u
partial_fixpoint

/-- A FREE VALUE (43_coordinate_transform R381, 93 U2 and U6; notes/assumptions/9.md): the pattern that the
implementation's P_CTU_FN gives for one result, a function of the four operand patterns and any pattern at all that
meets `admits`, the conditions R381 puts on it. That some pattern meets them is an argument (notes/assumptions/9.md),
so the constant has no value of its own. Argument order: RHO, PHI, THETA, OFFSET. -/
opaque Config.ctuResult (rho phi theta off : F64) (c : CtuComp) (admits : F64 → Prop)
    [Inhabited {r : F64 // admits r}] : {r : F64 // admits r}

/-- A FREE VALUE (43_coordinate_transform R381 condition 2; notes/assumptions/11.md): whether a zero result whose
products are all -0.0 is -0.0. -/
opaque Config.ctuZeroIsNegative (rho phi theta off : F64) (c : CtuComp) : Bool

/-- A FREE VALUE (00_scope R10; notes/assumptions/12.md): whether a negative exact value num/den that rounds to
zero gives -0.0. R10 fixes the pattern of an exact zero only. -/
opaque Config.tinyNegativeIsMinusZero (num : Int) (den : Nat) : Bool

end Sys2Proof
end

