-- ==== Sys2Proof/WellFormed.lean ====
section
/-! DEFINITION. The checks a term must pass to be of the block's language: command words (30_encoding R151, R157),
bus accesses (20_memory R104, R105), parameters (00_scope R7) and statements of the host notation
(30_encoding R160). An `Instr` has no operand field, so every `Instr` is well formed. -/

namespace Sys2Proof

/-- A command has no operand field (30_encoding R150), so there is nothing to check: constructor by constructor. -/
def Instr.wellFormed : Instr → Bool
  | .nop => true
  | .pktRead => true
  | .pktCheck => true
  | .setRes => true
  | .setSpeed => true
  | .setCorr => true
  | .turn => true
  | .setRings => true
  | .setPrerot => true
  | .setRto => true
  | .sweepStart => true
  | .ringDone => true
  | .sweepCancel => true
  | .ctuXform => true

/-- A command word is well formed when its MBZ field is zero and its OPC is one of the 14 of 30_encoding R157. -/
def commandWordWellFormed (v : Word) : Bool :=
  decide (v.toNat / 256 = 0) &&
    (([0x00, 0x10, 0x11, 0x20, 0x21, 0x22, 0x23, 0x30, 0x31, 0x32, 0x33, 0x34, 0x35, 0x40] : List Nat).contains
      (v.toNat % 256))

/-- An access is 32 bits wide (20_memory R104) and aligned (20_memory R105). -/
def BusAccess.wellFormed : BusAccess → Bool
  | .read addr size => decide (size = 4) && decide (addr.toNat % 4 = 0)
  | .write addr size _ => decide (size = 4) && decide (addr.toNat % 4 = 0)

/-- A cycle's input is well formed when its access, if any, is. -/
def CycleInput.wellFormed (c : CycleInput) : Bool :=
  match c.access with
  | none => true
  | some a => a.wellFormed

/-- The parameters keep the bounds of 00_scope R7: P_FCLK positive, P_RXQ_DEPTH at least 47, P_CRC_TABLE of 256
entries. R7 bounds P_CTU_EPS nowhere, and 20_memory R109 does not bound P_BASE. -/
def Params.wellFormed (p : Params) : Bool :=
  decide (0 < p.fclk) && decide (47 ≤ p.rxqDepth) && decide (p.crcTable.length = 256)

/-- `pkt_load` takes exactly the 47 bytes b0..b46 (30_encoding R160); the other pseudo-instructions carry only
values of their operands' own types. -/
def Pseudo.wellFormed : Pseudo → Bool
  | .pktLoad bytes => decide (bytes.length = 47)
  | .nop | .pktRead | .pktCheck | .setRes _ | .setSpeed _ | .setCorr _ | .turn _ _ | .setRings _
  | .setPrerot _ | .setRto _ | .sweepStart | .ringDone | .sweepCancel | .ctuXform | .wr64 _ _ | .rd64 _ => true

/-- A statement of the host notation is well formed when the pseudo-instruction in it is. -/
def HostStmt.wellFormed : HostStmt → Bool
  | .pseudo p => p.wellFormed
  | .wr _ _ | .rd _ | .poll _ _ _ | .wait _ | .rx _ => true

end Sys2Proof
end

