-- ==== Sys2Proof/Decode.lean ====
section
/-! DEFINITION. The decoder of command words, total and rejecting by name, and after it the encoder, each written
from 30_encoding R151, R156 and R157. -/

namespace Sys2Proof

/-- Why a command word is illegal (30_encoding R157). -/
inductive DecodeError where
  /-- The MBZ field, bits 31:8, is not zero. -/
  | mbzNonZero
  /-- The MBZ field is zero and the OPC, bits 7:0, is none of the 14. -/
  | unassignedOpcode (opc : Byte)
deriving DecidableEq, Repr

/-- OPC, bits 7:0 of a command word (30_encoding R151). -/
def opcField (v : Word) : Byte := v.setWidth 8

/-- MBZ, bits 31:8 of a command word (30_encoding R151). -/
def mbzField (v : Word) : BitVec 24 := v.extractLsb' 8 24

/-- The opcode map of 30_encoding R156. -/
def decodeOpcode (opc : Byte) : Except DecodeError Instr :=
  match opc.toNat with
  | 0x00 => .ok .nop
  | 0x10 => .ok .pktRead
  | 0x11 => .ok .pktCheck
  | 0x20 => .ok .setRes
  | 0x21 => .ok .setSpeed
  | 0x22 => .ok .setCorr
  | 0x23 => .ok .turn
  | 0x30 => .ok .setRings
  | 0x31 => .ok .setPrerot
  | 0x32 => .ok .setRto
  | 0x33 => .ok .sweepStart
  | 0x34 => .ok .ringDone
  | 0x35 => .ok .sweepCancel
  | 0x40 => .ok .ctuXform
  | _ => .error (.unassignedOpcode opc)

/-- Decodes a command word (30_encoding R152, R157): a word with a non-zero MBZ field is illegal whatever its
OPC, and is never partly decoded (44_general R411). -/
def decode (v : Word) : Except DecodeError Instr :=
  if mbzField v = 0 then decodeOpcode (opcField v) else .error .mbzNonZero

/-- The instruction that the decoder reads from a table row's bits: one 32-bit word, bits above `nbits` zero. -/
def decodeTableWord (nbits w : Nat) : Option Instr :=
  match decode (BitVec.ofNat 32 (w % 2 ^ nbits)) with
  | .ok i => some i
  | .error _ => none

/-- The command word of each command (30_encoding R156, the encodings of R160). -/
def encode : Instr → Word
  | .nop => 0x00000000#32
  | .pktRead => 0x00000010#32
  | .pktCheck => 0x00000011#32
  | .setRes => 0x00000020#32
  | .setSpeed => 0x00000021#32
  | .setCorr => 0x00000022#32
  | .turn => 0x00000023#32
  | .setRings => 0x00000030#32
  | .setPrerot => 0x00000031#32
  | .setRto => 0x00000032#32
  | .sweepStart => 0x00000033#32
  | .ringDone => 0x00000034#32
  | .sweepCancel => 0x00000035#32
  | .ctuXform => 0x00000040#32

end Sys2Proof
end

