-- ==== Sys2Proof/Machine/Constants.lean ====
section
/-! DEFINITION. The constants the source fixes (00_scope R6) and the default values of the parameters of
00_scope R7. -/

namespace Sys2Proof.Machine

/-- PKT_LEN, the length of a RawPacket (00_scope R6). -/
def PKT_LEN : Nat := 47

/-- SENTINEL, byte 0 of every RawPacket (00_scope R6). -/
def SENTINEL : Byte := 0x54

/-- CRC_POS, the offset of the checksum and the number of bytes it covers (00_scope R6). -/
def CRC_POS : Nat := 46

/-- SPR, the full steps of one revolution (00_scope R6). -/
def SPR : Nat := 200

/-- The largest legal SPEED, 4.5 Hz in units of 0.001 Hz (00_scope R6, 41_stepper_drive R263). -/
def MAX_SPEED : Nat := 4500

/-- The constant of the ID register (10_state R37). -/
def ID_VALUE : Word := 0x41454753

/-- Row r0 of the table of 40_packet_validator R203. -/
def crcRow0 : List Byte :=
  [0x00, 0x4D, 0x9A, 0xD7, 0x79, 0x34, 0xE3, 0xAE, 0xF2, 0xBF, 0x68, 0x25, 0x8B, 0xC6, 0x11, 0x5C]

/-- Row r1 of the table of 40_packet_validator R203. -/
def crcRow1 : List Byte :=
  [0xA9, 0xE4, 0x33, 0x7E, 0xD0, 0x9D, 0x4A, 0x07, 0x5B, 0x16, 0xC1, 0x8C, 0x22, 0x6F, 0xB8, 0xF5]

/-- Row r2 of the table of 40_packet_validator R203. -/
def crcRow2 : List Byte :=
  [0x1F, 0x52, 0x85, 0xC8, 0x66, 0x2B, 0xFC, 0xB1, 0xED, 0xA0, 0x77, 0x3A, 0x94, 0xD9, 0x0E, 0x43]

/-- Row r3 of the table of 40_packet_validator R203. -/
def crcRow3 : List Byte :=
  [0xB6, 0xFB, 0x2C, 0x61, 0xCF, 0x82, 0x55, 0x18, 0x44, 0x09, 0xDE, 0x93, 0x3D, 0x70, 0xA7, 0xEA]

/-- Row r4 of the table of 40_packet_validator R203. -/
def crcRow4 : List Byte :=
  [0x3E, 0x73, 0xA4, 0xE9, 0x47, 0x0A, 0xDD, 0x90, 0xCC, 0x81, 0x56, 0x1B, 0xB5, 0xF8, 0x2F, 0x62]

/-- Row r5 of the table of 40_packet_validator R203. -/
def crcRow5 : List Byte :=
  [0x97, 0xDA, 0x0D, 0x40, 0xEE, 0xA3, 0x74, 0x39, 0x65, 0x28, 0xFF, 0xB2, 0x1C, 0x51, 0x86, 0xCB]

/-- Row r6 of the table of 40_packet_validator R203. -/
def crcRow6 : List Byte :=
  [0x21, 0x6C, 0xBB, 0xF6, 0x58, 0x15, 0xC2, 0x8F, 0xD3, 0x9E, 0x49, 0x04, 0xAA, 0xE7, 0x30, 0x7D]

/-- Row r7 of the table of 40_packet_validator R203. -/
def crcRow7 : List Byte :=
  [0x88, 0xC5, 0x12, 0x5F, 0xF1, 0xBC, 0x6B, 0x26, 0x7A, 0x37, 0xE0, 0xAD, 0x03, 0x4E, 0x99, 0xD4]

/-- Row r8 of the table of 40_packet_validator R203. -/
def crcRow8 : List Byte :=
  [0x7C, 0x31, 0xE6, 0xAB, 0x05, 0x48, 0x9F, 0xD2, 0x8E, 0xC3, 0x14, 0x59, 0xF7, 0xBA, 0x6D, 0x20]

/-- Row r9 of the table of 40_packet_validator R203. -/
def crcRow9 : List Byte :=
  [0xD5, 0x98, 0x4F, 0x02, 0xAC, 0xE1, 0x36, 0x7B, 0x27, 0x6A, 0xBD, 0xF0, 0x5E, 0x13, 0xC4, 0x89]

/-- Row r10 of the table of 40_packet_validator R203. -/
def crcRow10 : List Byte :=
  [0x63, 0x2E, 0xF9, 0xB4, 0x1A, 0x57, 0x80, 0xCD, 0x91, 0xDC, 0x0B, 0x46, 0xE8, 0xA5, 0x72, 0x3F]

/-- Row r11 of the table of 40_packet_validator R203. -/
def crcRow11 : List Byte :=
  [0xCA, 0x87, 0x50, 0x1D, 0xB3, 0xFE, 0x29, 0x64, 0x38, 0x75, 0xA2, 0xEF, 0x41, 0x0C, 0xDB, 0x96]

/-- Row r12 of the table of 40_packet_validator R203. -/
def crcRow12 : List Byte :=
  [0x42, 0x0F, 0xD8, 0x95, 0x3B, 0x76, 0xA1, 0xEC, 0xB0, 0xFD, 0x2A, 0x67, 0xC9, 0x84, 0x53, 0x1E]

/-- Row r13 of the table of 40_packet_validator R203. -/
def crcRow13 : List Byte :=
  [0xEB, 0xA6, 0x71, 0x3C, 0x92, 0xDF, 0x08, 0x45, 0x19, 0x54, 0x83, 0xCE, 0x60, 0x2D, 0xFA, 0xB7]

/-- Row r14 of the table of 40_packet_validator R203. -/
def crcRow14 : List Byte :=
  [0x5D, 0x10, 0xC7, 0x8A, 0x24, 0x69, 0xBE, 0xF3, 0xAF, 0xE2, 0x35, 0x78, 0xD6, 0x9B, 0x4C, 0x01]

/-- Row r15 of the table of 40_packet_validator R203. -/
def crcRow15 : List Byte :=
  [0xF4, 0xB9, 0x6E, 0x23, 0x8D, 0xC0, 0x17, 0x5A, 0x06, 0x4B, 0x9C, 0xD1, 0x7F, 0x32, 0xE5, 0xA8]

/-- The default P_CRC_TABLE (40_packet_validator R203). PRESUMED: the spec takes it from general knowledge, and a
sensor with another table changes every CRC verdict (notes/assumptions/4.md, unsafe). -/
def defaultCrcTable : List Byte :=
  crcRow0 ++ crcRow1 ++ crcRow2 ++ crcRow3 ++ crcRow4 ++ crcRow5 ++ crcRow6 ++ crcRow7 ++
  crcRow8 ++ crcRow9 ++ crcRow10 ++ crcRow11 ++ crcRow12 ++ crcRow13 ++ crcRow14 ++ crcRow15

/-- The default P_MS_TABLE (41_stepper_drive R260), MS1 at bit 0. PRESUMED: the A4988 table, which the spec takes
from general knowledge (notes/assumptions/5.md, unsafe). -/
def defaultMsTable : MsTable where
  full := 0b000#3
  half := 0b001#3
  quarter := 0b010#3
  eighth := 0b011#3
  sixteenth := 0b111#3

/-- The parameters State.reset carries: the defaults of 00_scope R7, the P_FCLK of the spec's vectors (DESIGN CHOICE,
notes/assumptions/3.md, unsafe), and P_BASE 0 (DESIGN CHOICE, notes/assumptions/28.md). -/
def defaultParams : Params where
  fclk := 1000000
  rxqDepth := 256
  crcTable := defaultCrcTable
  msTable := defaultMsTable
  ctuEps := 1 / 2 ^ 40
  base := 0

end Sys2Proof.Machine
end

