-- ==== Sys2Proof/Machine/State.lean ====
section
/-! DEFINITION. The state of the block (10_state R30 and section 4 of that file; INVENTORY.md lists every element
with its rule), the reasons a step can stop, and the state after reset (70_reset_and_hazards R491). State is plain
data. Its sub-structures follow the units of 00_scope R2. -/

namespace Sys2Proof.Machine

/-- Why a step faults: NEVER. 60_exceptions R457: "Fault. None. No rule of the block leaves an admitted access
without meaning." The type has no constructor. -/
inductive Fault where
deriving DecidableEq, Repr

/-- Why a step is refused: the model has no meaning for what the host did (60_exceptions R457). -/
inductive Refusal where
  /-- Raised by an arm of `exec` whose command has no meaning yet; no arm does. Safe: the model stops. -/
  | notModelled (mnemonic : String)
  /-- Raised by the bus phase for an access that is not 32 bits wide (20_memory R104, 93 U1). Safe: R104 says that
  a model must refuse it. -/
  | accessWidth (size : Nat)
  /-- Raised by the bus phase for an access whose address is not a multiple of four (20_memory R105, 93 U1). Safe:
  R105 says that a model refuses it. -/
  | misaligned (addr : Addr)
deriving DecidableEq, Repr

/-- The result codes of 30_encoding R155; code 15 is never produced. -/
inductive ResultCode where
  | ok
  | pktLength
  | pktSentinel
  | pktCrc
  | invalidResolution
  | invalidSpeed
  | stepsTooSmall
  | resolutionTooFine
  | busy
  | illegalCommand
  | invalidRings
  | invalidCorr
  | ctuNonfinite
  | notInRingWait
  | noSweep
deriving DecidableEq, Repr

/-- The verdicts of the packet validator, codes 0 to 3 (40_packet_validator R204). -/
inductive PktVerdict where
  | ok
  | length
  | sentinel
  | crc
deriving DecidableEq, Repr

/-- SDU_STATE (10_state R77). -/
inductive SduState where
  | idle
  | setup
  | high
  | low
deriving DecidableEq, Repr

/-- TURN_ORIGIN (10_state R77): the issuer of the current or last turn. -/
inductive Origin where
  | host
  | seq
deriving DecidableEq, Repr

/-- SEQ_STATE (10_state R78); `returning` is RETURN. -/
inductive SeqState where
  | idle
  | prerot
  | ringWait
  | advance
  | returning
deriving DecidableEq, Repr

/-- SEQ_END (10_state R78): how the current or last sweep ended. -/
inductive SeqEnd where
  | none
  | complete
  | cancelled
  | timeout
deriving DecidableEq, Repr

/-- The interrupt sources of 60_exceptions R445, in the order of their bits. -/
inductive IrqSource where
  | turnDone
  | sweepDone
  | ringReq
  | ringTimeout
  | rxReady
  | rxOverflow
  | cmdReject
deriving DecidableEq, Repr

/-- The bits of ERR (10_state R43), in their order. -/
inductive ErrBit where
  | cmdReject
  | ringTimeout
  | rxOverflow
deriving DecidableEq, Repr

/-- A byte array as (index, byte) pairs in one canonical form: indices strictly rising, no entry equal to what an
unlisted index reads as (notes/assumptions/18.md). The operations are in Machine/Ops.lean. -/
abbrev Memory := List Host.Cell

/-- The command interface and the global registers (10_state section 4.1). -/
structure HostRegs where
  /-- LASTCMD (R38). -/
  lastcmd : Byte
  /-- ARG0 (R39). -/
  arg0 : Word
  /-- ARG1 (R40). -/
  arg1 : Word
  /-- RESULT[3:0] (R41). -/
  result : ResultCode
  /-- ERR[2:0] (R43). -/
  err : BitVec 3
  /-- IRQ_EN[6:0] (R44). -/
  irqEn : BitVec 7
  /-- IRQ_PEND[6:0] (R45). -/
  irqPend : BitVec 7
  /-- SWPHASE[2:0] (R46): CONVERTING, TRIMMING, SAVING. -/
  swphase : BitVec 3
deriving DecidableEq, Repr

/-- The packet validator unit (10_state sections 4.2 and 5). -/
structure Pvu where
  /-- RXQ, oldest byte first (R75). -/
  rxq : List Byte
  /-- PKTBUF, indices 0 to 46 (R76). -/
  pktbuf : Memory
  /-- PKT_VALID (R48). -/
  pktValid : Bool
  /-- PKT_LAST (R48). -/
  pktLast : PktVerdict
  /-- RESYNC_CNT (R49). -/
  resyncCnt : Word
  /-- PKT_OK_CNT (R50). -/
  pktOkCnt : Word
  /-- PKT_ERR_CNT (R50). -/
  pktErrCnt : Word
deriving DecidableEq, Repr

/-- The stepper drive unit (10_state sections 4.3 and 5). -/
structure Sdu where
  /-- MSCODE (R56). -/
  mscode : Preset
  /-- SPEED, in 0.001 Hz (R57). -/
  speed : Word
  /-- CORR, a binary64 pattern (R58). -/
  corr : F64
  /-- POS, two's complement, in 1/3200 revolution (R59). -/
  pos : DWord
  /-- STEP_CNT (R61). -/
  stepCnt : DWord
  /-- HALF (R62). -/
  half : Word
  /-- TURN_N (R63). -/
  turnN : DWord
  /-- SDU_STATE (R77). -/
  state : SduState
  /-- PH_CNT (R77). -/
  phCnt : Word
  /-- REM (R77). -/
  rem : DWord
  /-- TURN_DIR (R77). -/
  turnDir : Dir
  /-- TURN_ORIGIN (R77). -/
  turnOrigin : Origin
deriving DecidableEq, Repr

/-- The sweep sequencer (10_state sections 4.4 and 5). -/
structure Ssm where
  /-- RINGS (R64). -/
  rings : Word
  /-- PREROT (R65). -/
  prerot : Word
  /-- RTO (R66). -/
  rto : Word
  /-- SPRING (R67). -/
  spring : Word
  /-- RING_IDX (R68). -/
  ringIdx : Word
  /-- FAIL_RING (R69). -/
  failRing : Word
  /-- SWEEP_ACC (R70). -/
  sweepAcc : DWord
  /-- SEQ_STATE (R78). -/
  state : SeqState
  /-- CANCEL_PEND (R78). -/
  cancelPend : Bool
  /-- RTO_CNT (R78). -/
  rtoCnt : Word
  /-- SEQ_END (R78). -/
  seqEnd : SeqEnd
deriving DecidableEq, Repr

/-- The coordinate transform unit (10_state section 4.5). -/
structure Ctu where
  /-- RHO (R71). -/
  rho : F64
  /-- PHI (R71). -/
  phi : F64
  /-- THETA (R71). -/
  theta : F64
  /-- OFFSET (R71). -/
  offset : F64
  /-- X (R72). -/
  x : F64
  /-- Y (R72). -/
  y : F64
  /-- Z (R72). -/
  z : F64
deriving DecidableEq, Repr

/-- The output lines as they stand through the coming cycle (10_state R31 phase 5, R80). DEDUCED: R80 has a line
hold, during a cycle, the value of the end of the cycle before, and STATUS shows the lines, so they are held
(notes/assumptions/13.md). -/
structure Lines where
  /-- STEP. -/
  step : Bool
  /-- DIR: false for CW, true for CCW. -/
  dir : Bool
  /-- MS1 at bit 0, MS2 at bit 1, MS3 at bit 2. -/
  ms : BitVec 3
  /-- IRQ. -/
  irq : Bool
deriving DecidableEq, Repr

/-- The whole state. The last three fields are the MODEL's own: the parameters of 00_scope R7
(notes/assumptions/2.md), what the environment does in the coming cycles, nothing after the list's end
(notes/assumptions/1.md), and the value the bus returned in the last cycle (notes/assumptions/14.md). -/
structure State where
  host : HostRegs
  pvu : Pvu
  sdu : Sdu
  ssm : Ssm
  ctu : Ctu
  lines : Lines
  params : Params
  inputs : List CycleInput
  readData : Option Word
deriving DecidableEq, Repr

/-- Every element at its reset value (70_reset_and_hazards R491), for the given parameters, with the given
environment to come. -/
def State.resetWith (p : Params) (inputs : List CycleInput) : State where
  host :=
    { lastcmd := 0, arg0 := 0, arg1 := 0, result := .ok, err := 0, irqEn := 0, irqPend := 0, swphase := 0 }
  pvu :=
    { rxq := [], pktbuf := [], pktValid := false, pktLast := .ok, resyncCnt := 0, pktOkCnt := 0, pktErrCnt := 0 }
  sdu :=
    { mscode := .full, speed := 1000, corr := 0x3FF0000000000000, pos := 0, stepCnt := 0, half := 0, turnN := 0,
      state := .idle, phCnt := 0, rem := 0, turnDir := .cw, turnOrigin := .host }
  ssm :=
    { rings := 100, prerot := 0, rto := 0, spring := 0, ringIdx := 0, failRing := 0, sweepAcc := 0,
      state := .idle, cancelPend := false, rtoCnt := 0, seqEnd := .none }
  ctu := { rho := 0, phi := 0, theta := 0, offset := 0, x := 0, y := 0, z := 0 }
  lines := { step := false, dir := false, ms := p.msTable.full, irq := false }
  params := p
  inputs := inputs
  readData := none

/-- The machine right after reset (70_reset_and_hazards R491), with the default parameters and an environment
that does nothing. -/
def State.reset : State := State.resetWith defaultParams []

end Sys2Proof.Machine
end

