-- ==== Sys2Proof/Machine/Binary64.lean ====
section
/-! DEFINITION. binary64 patterns and the one rounding to them (00_scope R10). A finite pattern's value is an
integer multiple of 2^-1074, so every exact comparison is one of integers. -/

namespace Sys2Proof.Machine

/-- The number of smallest subnormal steps in 1. -/
def f64Unit : Nat := 2 ^ 1074

/-- The sign bit, bit 63. -/
def F64.sign (b : F64) : Bool := b.getLsbD 63

/-- The exponent field, bits 62:52. -/
def F64.expField (b : F64) : Nat := b.toNat / 2 ^ 52 % 2 ^ 11

/-- The fraction field, bits 51:0. -/
def F64.fracField (b : F64) : Nat := b.toNat % 2 ^ 52

/-- `finite(b)` of 00_scope R10: the exponent field is not 0x7FF. -/
def F64.finite (b : F64) : Bool := F64.expField b != 0x7FF

/-- The pattern is +0.0 or -0.0. -/
def F64.isZero (b : F64) : Bool := b.toNat % 2 ^ 63 == 0

/-- The magnitude of a finite pattern, in units of 2^-1074. -/
def F64.magnitude (b : F64) : Nat :=
  if F64.expField b = 0 then F64.fracField b
  else (F64.fracField b + 2 ^ 52) * 2 ^ (F64.expField b - 1)

/-- f64(b) of 00_scope R10 for a finite pattern, in units of 2^-1074: f64(b) = scaled b / 2^1074. -/
def F64.scaled (b : F64) : Int := if F64.sign b then -(F64.magnitude b : Int) else F64.magnitude b

/-- f64(b) of 00_scope R10 for a finite pattern, as a rational. -/
def F64.toRat (b : F64) : ℚ := (F64.scaled b : ℚ) / (f64Unit : ℚ)

/-- The integer nearest to a/b, ties to even (`round_half_even` of 00_scope R12). -/
def roundHalfEven (a b : Nat) : Nat :=
  let q := a / b
  let r := a % b
  if 2 * r > b then q + 1 else if 2 * r < b then q else q + q % 2

/-- The pattern +infinity. -/
def F64.infinity : F64 := 0x7FF0000000000000

/-- The pattern -0.0. -/
def F64.minusZero : F64 := 0x8000000000000000

/-- The magnitude bits of the pattern nearest to a/b for a, b ≥ 0, b > 0, ties to the even significand, overflow
to infinity. `e` is the exponent of the last significand bit above the subnormal unit. -/
def rneMagnitude (a b : Nat) : Nat :=
  let n := a * f64Unit
  let e := (n / b).log2 - 52
  let m := roundHalfEven n (b * 2 ^ e)
  min (e * 2 ^ 52 + m) (0x7FF * 2 ^ 52)

/-- `RNE64(num/den)` of 00_scope R10, for den > 0: an exact zero gives +0.0. The sign of a negative value that
rounds to zero is a free value (notes/assumptions/12.md). -/
def rne64 (num : Int) (den : Nat) : F64 :=
  let m := rneMagnitude num.natAbs den
  if 0 ≤ num then BitVec.ofNat 64 m
  else if m = 0 then (if Config.tinyNegativeIsMinusZero num den then F64.minusZero else 0)
  else BitVec.ofNat 64 (2 ^ 63 + m)

end Sys2Proof.Machine
end

