-- ==== Sys2Proof/Machine/Ops.lean ====
section
/-! DEFINITION. The named operations every command and tick is built from: the byte array, how a command ends
(60_exceptions R440 and R441, the block's whole exception mechanism), the pending bits, the turn primitives, the
CRC-8 and the validator, and the two sequencer primitives. -/

namespace Sys2Proof.Machine

/-! ## The byte array -/

/-- What an index that is not listed reads as: 0x00, the reset contents of PKTBUF (10_state R76). -/
def Memory.unlisted : Byte := 0

/-- The byte at an index. -/
def Memory.read : Memory → Nat → Byte
  | [], _ => Memory.unlisted
  | (a, b) :: m, k => if a = k then b else Memory.read m k

/-- Stores a byte at an index, keeping the canonical form: a byte equal to `unlisted` is not listed. -/
def Memory.write : Memory → Nat → Byte → Memory
  | [], k, v => if v = Memory.unlisted then [] else [(k, v)]
  | (a, b) :: m, k, v =>
    if k < a then (if v = Memory.unlisted then (a, b) :: m else (k, v) :: (a, b) :: m)
    else if k = a then (if v = Memory.unlisted then m else (k, v) :: m)
    else (a, b) :: Memory.write m k v

/-- Stores the bytes one after the other from an index on. -/
def Memory.writeBytes : Memory → Nat → List Byte → Memory
  | m, _, [] => m
  | m, k, b :: bs => Memory.writeBytes (Memory.write m k b) (k + 1) bs

/-- The first n bytes. -/
def Memory.bytes (m : Memory) (n : Nat) : List Byte := (List.range n).map (Memory.read m)

/-- The canonical form: indices strictly rising, each at least `lo` and below `hi`, no entry equal to
`unlisted`. -/
def Memory.wfFrom (lo hi : Nat) : Memory → Bool
  | [] => true
  | (a, b) :: m => decide (lo ≤ a) && decide (a < hi) && decide (b ≠ Memory.unlisted) && Memory.wfFrom (a + 1) hi m

/-- The canonical form of PKTBUF, indices 0 to 46. -/
def Memory.wf (m : Memory) : Bool := Memory.wfFrom 0 PKT_LEN m

/-! ## How a command ends -/

/-- The bit of an interrupt source in IRQ_PEND and IRQ_EN (60_exceptions R445). -/
def IrqSource.bit : IrqSource → BitVec 7
  | .turnDone => 0b0000001
  | .sweepDone => 0b0000010
  | .ringReq => 0b0000100
  | .ringTimeout => 0b0001000
  | .rxReady => 0b0010000
  | .rxOverflow => 0b0100000
  | .cmdReject => 0b1000000

/-- The bit of an error in ERR (10_state R43). -/
def ErrBit.bit : ErrBit → BitVec 3
  | .cmdReject => 0b001
  | .ringTimeout => 0b010
  | .rxOverflow => 0b100

/-- `pend(i)` of 00_scope R11: sets bit i of IRQ_PEND. -/
def State.pend (src : IrqSource) (s : State) : State :=
  { s with host := { s.host with irqPend := s.host.irqPend ||| src.bit } }

/-- Sets a sticky bit of ERR (10_state R43). -/
def State.setErr (e : ErrBit) (s : State) : State :=
  { s with host := { s.host with err := s.host.err ||| e.bit } }

/-- `Complete(code)` of 60_exceptions R440. -/
def State.complete (code : ResultCode) (s : State) : State :=
  { s with host := { s.host with result := code } }

/-- `raise Reject(code)` of 60_exceptions R441, the one synchronous exception of the block: RESULT, ERR[0] and
IRQ_PEND[6] record it, nothing else changes, and there is no control transfer, no saved state and no return
(R449, R450). -/
def State.reject (code : ResultCode) (s : State) : State :=
  ((s.complete code).setErr .cmdReject).pend .cmdReject

/-- BUSY_NOW of 30_encoding R154. -/
def State.busyNow (s : State) : Bool := s.sdu.state != .idle || s.ssm.state != .idle

/-! ## Arithmetic helpers -/

/-- `ceil_div` of 00_scope R12, for b > 0: the least q with q·b ≥ a. -/
def ceilDiv (a b : Nat) : Nat := (a + (b - 1)) / b

/-- The denominator md of a preset (41_stepper_drive R260). -/
def Preset.md : Preset → Nat
  | .full => 1
  | .half => 2
  | .quarter => 4
  | .eighth => 8
  | .sixteenth => 16

/-- The preset of a code, ARG0 of SET_RES (41_stepper_drive R260). -/
def Preset.ofCode : Nat → Option Preset
  | 0 => some .full
  | 1 => some .half
  | 2 => some .quarter
  | 3 => some .eighth
  | 4 => some .sixteenth
  | _ => none

/-- P_MS_TABLE[MSCODE] (41_stepper_drive R260). -/
def MsTable.at (t : MsTable) : Preset → BitVec 3
  | .full => t.full
  | .half => t.half
  | .quarter => t.quarter
  | .eighth => t.eighth
  | .sixteenth => t.sixteenth

/-- The position units of one step, 16/md (10_state R59). -/
def Preset.unitsPerStep (p : Preset) : Nat := 16 / Preset.md p

/-- HalfPeriod(md, SPEED) of 41_stepper_drive R265, before it is stored in a u32; 400 = 2 · SPR. -/
def halfPeriod (fclk md speed : Nat) : Nat :=
  min (2 ^ 32 - 1) (max 1 (ceilDiv (fclk * 1000) (2 * SPR * md * speed)))

/-- StepsPerRing(md, rings) of 42_sweep_sequencer R323. -/
def stepsPerRing (md rings : Nat) : Nat := roundHalfEven (100 * md) rings

/-! ## The stepper drive's primitives -/

/-- StartTurn(dir, n, origin) of 41_stepper_drive R266. -/
def State.startTurn (dir : Dir) (n : DWord) (origin : Origin) (s : State) : State :=
  { s with
    sdu :=
      { s.sdu with
        turnDir := dir
        turnN := n
        rem := n
        stepCnt := 0
        half := BitVec.ofNat 32 (halfPeriod s.params.fclk (Preset.md s.sdu.mscode) s.sdu.speed.toNat)
        turnOrigin := origin
        state := .setup } }

/-- POS after n steps from `pos` in a direction at a preset, modulo 2^64 (41_stepper_drive R269). -/
def advancePos (dir : Dir) (p : Preset) (n pos : DWord) : DWord :=
  let d := n * BitVec.ofNat 64 (Preset.unitsPerStep p)
  match dir with
  | .cw => pos + d
  | .ccw => pos - d

/-- AngleReached() of 41_stepper_drive R272: POS · f64(CORR) ≥ 1600, exact, with POS signed. -/
def State.angleReached (s : State) : Bool :=
  decide (1600 * (f64Unit : Int) ≤ s.sdu.pos.toInt * F64.scaled s.sdu.corr)

/-- The value of the ANGLE register (41_stepper_drive R271): one rounding of POS · 360 · f64(CORR) / 3200. -/
def State.angle (s : State) : F64 :=
  rne64 (s.sdu.pos.toInt * 360 * F64.scaled s.sdu.corr) (3200 * f64Unit)

/-! ## The packet validator's primitives -/

/-- CRC8 of 40_packet_validator R202 through a lookup table: initial value 0x00, no final XOR. -/
def crc8 (table : List Byte) (bytes : List Byte) : Byte :=
  bytes.foldl (fun crc b => table.getD (crc ^^^ b).toNat 0) 0

/-- Validate(buf, k) of 40_packet_validator R204: length, then sentinel, then CRC. -/
def validate (table : List Byte) (buf : Memory) (k : Nat) : PktVerdict :=
  if k < PKT_LEN then .length
  else if Memory.read buf 0 ≠ SENTINEL then .sentinel
  else if crc8 table (Memory.bytes buf CRC_POS) ≠ Memory.read buf CRC_POS then .crc
  else .ok

/-- Resync() of 40_packet_validator R206: what is left of RXQ, and how many bytes were discarded. -/
def resync : List Byte → List Byte × Nat
  | [] => ([], 0)
  | b :: q => if b = SENTINEL then (b :: q, 0) else ((resync q).1, (resync q).2 + 1)

/-- The 47 bytes PKT_READ stores: those taken from RXQ, then zeros (40_packet_validator R205). -/
def padPacket (taken : List Byte) : List Byte := (List.range PKT_LEN).map (fun j => taken.getD j 0)

/-- The RESULT code of a verdict (30_encoding R155). -/
def PktVerdict.result : PktVerdict → ResultCode
  | .ok => .ok
  | .length => .pktLength
  | .sentinel => .pktSentinel
  | .crc => .pktCrc

/-- `le16(b0, b1)` of 00_scope R9, zero-extended: b0 in the low byte. -/
def le16 (b0 b1 : Byte) : BitVec 16 := b1 ++ b0

/-! ## The sweep sequencer's primitives -/

/-- Sets SEQ_STATE (10_state R78). -/
def State.setSeqState (q : SeqState) (s : State) : State := { s with ssm := { s.ssm with state := q } }

/-- Records how the sweep ended and clears CANCEL_PEND, the first two writes of EnterReturn (42_sweep_sequencer
R328). -/
def State.endSweep (code : SeqEnd) (s : State) : State :=
  { s with ssm := { s.ssm with seqEnd := code, cancelPend := false } }

/-- Adds completed steps to SWEEP_ACC, modulo 2^64 (42_sweep_sequencer R329, R330). -/
def State.addSweep (n : DWord) (s : State) : State :=
  { s with ssm := { s.ssm with sweepAcc := s.ssm.sweepAcc + n } }

/-- EnterRingWait() of 42_sweep_sequencer R327. -/
def State.enterRingWait (s : State) : State :=
  State.pend .ringReq { s with ssm := { s.ssm with state := .ringWait, rtoCnt := 0 } }

/-- EnterReturn(code) of 42_sweep_sequencer R328. -/
def State.enterReturn (code : SeqEnd) (s : State) : State :=
  if s.ssm.sweepAcc = 0 then ((s.endSweep code).setSeqState .idle).pend .sweepDone
  else ((s.endSweep code).startTurn .ccw s.ssm.sweepAcc .seq).setSeqState .returning

/-- The output lines as functions of the state (10_state R80). -/
def State.linesOf (s : State) : Lines where
  step := s.sdu.state == .high
  dir := s.sdu.turnDir == .ccw
  ms := MsTable.at s.params.msTable s.sdu.mscode
  irq := (s.host.irqPend &&& s.host.irqEn) != 0

end Sys2Proof.Machine
end

