-- ==== Sys2Proof/Machine/Operands.lean ====
section
/-! DEFINITION. Operand assembly (30_encoding R153): every form in which a command takes its operands. All are read
at dispatch, whole and zero-extended unless a bit is named. -/

namespace Sys2Proof.Machine

/-- ARG0 as an unsigned integer. -/
def State.arg0Nat (s : State) : Nat := s.host.arg0.toNat

/-- `zext(ARG0)` as the 64-bit step count of TURN. -/
def State.arg0Steps (s : State) : DWord := s.host.arg0.setWidth 64

/-- ARG1[0] as a direction, 0 CW and 1 CCW; ARG1[31:1] are ignored (10_state R40). -/
def State.arg1Dir (s : State) : Dir := if s.host.arg1.getLsbD 0 then .ccw else .cw

/-- `{ARG1, ARG0}`, the binary64 operand of SET_CORR. -/
def State.argF64 (s : State) : F64 := s.host.arg1 ++ s.host.arg0

/-- The four binary64 operands of CTU_XFORM are all finite (43_coordinate_transform R382). -/
def State.ctuOperandsFinite (s : State) : Bool :=
  F64.finite s.ctu.rho && F64.finite s.ctu.phi && F64.finite s.ctu.theta && F64.finite s.ctu.offset

end Sys2Proof.Machine
end

