-- ==== Sys2Proof/Machine/General.lean ====
section
/-! DEFINITION. The global command (44_general section 1) and what an illegal command word does. -/

namespace Sys2Proof.Machine

/-- NOP (44_general R410): reports success and does nothing else. -/
def execNop (s : State) : Host.Outcome State Fault Refusal := .next (s.complete .ok)

/-- An illegal command word (44_general R411, 30_encoding R157): the rejection ILLEGAL_COMMAND. -/
def execIllegal (s : State) : Host.Outcome State Fault Refusal := .next (s.reject .illegalCommand)

end Sys2Proof.Machine
end

