-- ==== Sys2Proof/Machine/Pvu.lean ====
section
/-! DEFINITION. The packet validator unit: its two commands (40_packet_validator R205, R207), the host's write to
the packet buffer (R209) and the RX phase (R200). -/

namespace Sys2Proof.Machine

/-- The bytes PKT_READ takes: the oldest 47, or all there are (40_packet_validator R205). -/
def State.takenCount (s : State) : Nat := min PKT_LEN s.pvu.rxq.length

/-- PKTBUF after PKT_READ: the bytes taken, then zeros (40_packet_validator R205). -/
def State.readBuffer (s : State) : Memory :=
  Memory.writeBytes s.pvu.pktbuf 0 (padPacket (s.pvu.rxq.take s.takenCount))

/-- The verdict of PKT_READ (40_packet_validator R204, R205). -/
def State.readVerdict (s : State) : PktVerdict := validate s.params.crcTable s.readBuffer s.takenCount

/-- The unit after a PKT_READ that accepts the packet (40_packet_validator R205). -/
def State.acceptPacket (s : State) : Pvu :=
  { rxq := s.pvu.rxq.drop s.takenCount
    pktbuf := s.readBuffer
    pktValid := true
    pktLast := .ok
    resyncCnt := 0
    pktOkCnt := s.pvu.pktOkCnt + 1
    pktErrCnt := s.pvu.pktErrCnt }

/-- The unit after a PKT_READ that fails with the given verdict: resynchronised (40_packet_validator R205, R206). -/
def State.discardPacket (v : PktVerdict) (s : State) : Pvu :=
  { rxq := (resync (s.pvu.rxq.drop s.takenCount)).1
    pktbuf := s.readBuffer
    pktValid := false
    pktLast := v
    resyncCnt := BitVec.ofNat 32 (resync (s.pvu.rxq.drop s.takenCount)).2
    pktOkCnt := s.pvu.pktOkCnt
    pktErrCnt := s.pvu.pktErrCnt + 1 }

/-- PKT_READ (40_packet_validator R205): takes up to 47 bytes, zero-fills the rest, validates, and resynchronises
on failure. Every outcome is a completion (60_exceptions R442). -/
def execPktRead (s : State) : Host.Outcome State Fault Refusal :=
  .next (State.complete s.readVerdict.result
    { s with pvu := if s.readVerdict = .ok then s.acceptPacket else s.discardPacket s.readVerdict })

/-- The verdict of PKT_CHECK (40_packet_validator R207): the buffer always holds 47 bytes. -/
def State.bufferVerdict (s : State) : PktVerdict := validate s.params.crcTable s.pvu.pktbuf PKT_LEN

/-- PKT_CHECK (40_packet_validator R207): validates the buffer in place, without touching the stream or the
counters. -/
def execPktCheck (s : State) : Host.Outcome State Fault Refusal :=
  .next (State.complete s.bufferVerdict.result
    { s with pvu := { s.pvu with pktValid := decide (s.bufferVerdict = .ok), pktLast := s.bufferVerdict } })

/-- The bytes a word write stores from byte 4k on; byte 47 does not exist (40_packet_validator R209). -/
def wordBytes (k : Fin 12) (v : Word) : List Byte :=
  [v.extractLsb' 0 8, v.extractLsb' 8 8, v.extractLsb' 16 8, v.extractLsb' 24 8].take (PKT_LEN - 4 * k.val)

/-- A host write to PKTBUF_Wk (40_packet_validator R209): byte 47 does not exist and its bits are ignored. -/
def writePktbuf (k : Fin 12) (v : Word) (s : State) : State :=
  { s with
    pvu := { s.pvu with
      pktbuf := Memory.writeBytes s.pvu.pktbuf (4 * k.val) (wordBytes k v), pktValid := false } }

/-- The RX phase (40_packet_validator R200): the byte is appended, or dropped with RX_OVERFLOW when RXQ is full. -/
def rxPhase (rx : Option Byte) (s : State) : State :=
  match rx with
  | none => s
  | some b =>
    if s.pvu.rxq.length < s.params.rxqDepth then
      { s with pvu := { s.pvu with rxq := s.pvu.rxq ++ [b] } }
    else (s.setErr .rxOverflow).pend .rxOverflow

end Sys2Proof.Machine
end

