-- ==== Sys2Proof/Machine/Stepper.lean ====
section
/-! DEFINITION. The stepper drive unit: its four commands (41_stepper_drive R262 to R264, R267) and the SDU tick
with TurnComplete (R268, R269). -/

namespace Sys2Proof.Machine

/-- SET_RES (41_stepper_drive R262). -/
def execSetRes (s : State) : Host.Outcome State Fault Refusal :=
  if s.busyNow then .next (s.reject .busy)
  else match Preset.ofCode s.arg0Nat with
    | none => .next (s.reject .invalidResolution)
    | some p => .next (State.complete .ok { s with sdu := { s.sdu with mscode := p } })

/-- SET_SPEED (41_stepper_drive R263). -/
def execSetSpeed (s : State) : Host.Outcome State Fault Refusal :=
  if s.busyNow then .next (s.reject .busy)
  else if s.arg0Nat = 0 ∨ MAX_SPEED < s.arg0Nat then .next (s.reject .invalidSpeed)
  else .next (State.complete .ok { s with sdu := { s.sdu with speed := s.host.arg0 } })

/-- SET_CORR (41_stepper_drive R264): the factor must be finite and positive. -/
def execSetCorr (s : State) : Host.Outcome State Fault Refusal :=
  if s.busyNow then .next (s.reject .busy)
  else if F64.finite s.argF64 ∧ 0 < F64.scaled s.argF64 then
    .next (State.complete .ok { s with sdu := { s.sdu with corr := s.argF64 } })
  else .next (s.reject .invalidCorr)

/-- TURN (41_stepper_drive R267): completes when the motion has been started (30_encoding R152). -/
def execTurn (s : State) : Host.Outcome State Fault Refusal :=
  if s.busyNow then .next (s.reject .busy)
  else if s.arg0Nat = 0 then .next (s.reject .stepsTooSmall)
  else .next (State.complete .ok (s.startTurn s.arg1Dir s.arg0Steps .host))

/-- POS after the turn and SDU_STATE IDLE, the first two writes of TurnComplete (41_stepper_drive R269). -/
def State.finishTurn (s : State) : State :=
  { s with
    sdu :=
      { s.sdu with
        pos := advancePos s.sdu.turnDir s.sdu.mscode s.sdu.turnN s.sdu.pos
        state := .idle } }

/-- TurnComplete() of 41_stepper_drive R269, but for the event TURN_COMPLETE, which is the SDU tick's second
result: only a turn of the host sets TURN_DONE. -/
def turnComplete (s : State) : State :=
  match s.sdu.turnOrigin with
  | .host => s.finishTurn.pend .turnDone
  | .seq => s.finishTurn

/-- Enters HIGH or LOW with a full hold ahead (41_stepper_drive R268). -/
def State.startHold (q : SduState) (s : State) : State :=
  { s with sdu := { s.sdu with state := q, phCnt := s.sdu.half } }

/-- PH_CNT one cycle down (41_stepper_drive R268). -/
def State.countHold (s : State) : State := { s with sdu := { s.sdu with phCnt := s.sdu.phCnt - 1 } }

/-- One full pulse cycle done: PH_CNT has reached 0, STEP_CNT counts up and REM down (41_stepper_drive R268). -/
def State.countPulse (s : State) : State :=
  { s with
    sdu := { s.sdu with phCnt := s.sdu.phCnt - 1, stepCnt := s.sdu.stepCnt + 1, rem := s.sdu.rem - 1 } }

/-- The SDU tick (41_stepper_drive R268) and whether it produced TURN_COMPLETE in this cycle. -/
def sduTick (s : State) : State × Bool :=
  match s.sdu.state with
  | .idle => (s, false)
  | .setup => (s.startHold .high, false)
  | .high => if s.sdu.phCnt - 1 = 0 then (s.startHold .low, false) else (s.countHold, false)
  | .low =>
    if s.sdu.phCnt - 1 = 0 then
      if s.sdu.rem - 1 = 0 then (turnComplete s.countPulse, true) else (s.countPulse.startHold .high, false)
    else (s.countHold, false)

end Sys2Proof.Machine
end

