-- ==== Sys2Proof/Machine/Sweep.lean ====
section
/-! DEFINITION. The sweep sequencer: its six commands (42_sweep_sequencer R320 to R322, R324 to R326) and the SSM
tick (R329 to R332). -/

namespace Sys2Proof.Machine

/-- SET_RINGS (42_sweep_sequencer R320). -/
def execSetRings (s : State) : Host.Outcome State Fault Refusal :=
  if s.busyNow then .next (s.reject .busy)
  else if s.arg0Nat = 0 then .next (s.reject .invalidRings)
  else if 100 * Preset.md s.sdu.mscode < s.arg0Nat then .next (s.reject .resolutionTooFine)
  else .next (State.complete .ok { s with ssm := { s.ssm with rings := s.host.arg0 } })

/-- SET_PREROT (42_sweep_sequencer R321). -/
def execSetPrerot (s : State) : Host.Outcome State Fault Refusal :=
  if s.busyNow then .next (s.reject .busy)
  else .next (State.complete .ok { s with ssm := { s.ssm with prerot := s.host.arg0 } })

/-- SET_RTO (42_sweep_sequencer R322). -/
def execSetRto (s : State) : Host.Outcome State Fault Refusal :=
  if s.busyNow then .next (s.reject .busy)
  else .next (State.complete .ok { s with ssm := { s.ssm with rto := s.host.arg0 } })

/-- What SWEEP_START writes before it starts the pre-rotation or the first ring (42_sweep_sequencer R324). -/
def sweepPrepare (s : State) : State :=
  { s with
    ssm :=
      { s.ssm with
        spring := BitVec.ofNat 32 (stepsPerRing (Preset.md s.sdu.mscode) s.ssm.rings.toNat)
        sweepAcc := 0
        ringIdx := 0
        cancelPend := false
        seqEnd := .none } }

/-- SWEEP_START (42_sweep_sequencer R324). -/
def execSweepStart (s : State) : Host.Outcome State Fault Refusal :=
  if s.busyNow then .next (s.reject .busy)
  else if 100 * Preset.md s.sdu.mscode < s.ssm.rings.toNat then .next (s.reject .resolutionTooFine)
  else if s.ssm.prerot = 0 then .next (State.complete .ok (sweepPrepare s).enterRingWait)
  else
    .next (State.complete .ok
      (((sweepPrepare s).startTurn .cw (s.ssm.prerot.setWidth 64) .seq).setSeqState .prerot))

/-- RING_IDX one ring on, modulo 2^32 (42_sweep_sequencer R325). -/
def State.countRing (s : State) : State := { s with ssm := { s.ssm with ringIdx := s.ssm.ringIdx + 1 } }

/-- RING_DONE (42_sweep_sequencer R325). -/
def execRingDone (s : State) : Host.Outcome State Fault Refusal :=
  if s.ssm.state = .ringWait then
    .next (State.complete .ok
      ((s.countRing.startTurn .cw (s.ssm.spring.setWidth 64) .seq).setSeqState .advance))
  else .next (s.reject .notInRingWait)

/-- CANCEL_PEND set (42_sweep_sequencer R326). -/
def State.requestCancel (s : State) : State := { s with ssm := { s.ssm with cancelPend := true } }

/-- SWEEP_CANCEL (42_sweep_sequencer R326). -/
def execSweepCancel (s : State) : Host.Outcome State Fault Refusal :=
  match s.ssm.state with
  | .idle => .next (s.reject .noSweep)
  | .ringWait => .next (State.complete .ok (s.enterReturn .cancelled))
  | .prerot => .next (State.complete .ok s.requestCancel)
  | .advance => .next (State.complete .ok s.requestCancel)
  | .returning => .next (State.complete .ok s)

/-- RTO_CNT one cycle on, saturating at 2^32 - 1 (10_state R32, 42_sweep_sequencer R332). -/
def rtoCount (c : Word) : Word := if c = BitVec.allOnes 32 then c else c + 1

/-- The timeout's record: ERR, IRQ_PEND and FAIL_RING (42_sweep_sequencer R332). -/
def State.recordTimeout (s : State) : State :=
  ((State.setErr .ringTimeout { s with ssm := { s.ssm with failRing := s.ssm.ringIdx } }).pend .ringTimeout)

/-- RTO_CNT counted (42_sweep_sequencer R332). -/
def State.countRto (s : State) : State := { s with ssm := { s.ssm with rtoCnt := rtoCount s.ssm.rtoCnt } }

/-- The SSM tick in RING_WAIT (42_sweep_sequencer R332): the ring-capture timeout. -/
def ringWaitTick (s : State) : State :=
  if s.ssm.rto ≠ 0 ∧ s.ssm.rto.toNat ≤ (rtoCount s.ssm.rtoCnt).toNat then
    s.countRto.recordTimeout.enterReturn .timeout
  else s.countRto

/-- The SSM tick when the pre-rotation's turn completes (42_sweep_sequencer R329). -/
def prerotDone (s : State) : State :=
  if s.ssm.cancelPend then (s.addSweep (s.ssm.prerot.setWidth 64)).enterReturn .cancelled
  else (s.addSweep (s.ssm.prerot.setWidth 64)).enterRingWait

/-- The SSM tick when an advance completes (42_sweep_sequencer R330): a pending cancel wins over the angle. Where the
formula and the sentence of R334 on the number of rings disagree, this follows the formula (DEDUCED,
notes/assumptions/29.md, unsafe). -/
def advanceDone (s : State) : State :=
  if s.ssm.cancelPend then (s.addSweep (s.ssm.spring.setWidth 64)).enterReturn .cancelled
  else if s.angleReached then (s.addSweep (s.ssm.spring.setWidth 64)).enterReturn .complete
  else (s.addSweep (s.ssm.spring.setWidth 64)).enterRingWait

/-- The SSM tick (42_sweep_sequencer R329 to R332); `done` is TURN_COMPLETE of this cycle. -/
def ssmTick (done : Bool) (s : State) : State :=
  match s.ssm.state with
  | .idle => s
  | .prerot => if done then prerotDone s else s
  | .advance => if done then advanceDone s else s
  | .returning => if done then (s.setSeqState .idle).pend .sweepDone else s
  | .ringWait => ringWaitTick s

end Sys2Proof.Machine
end

