-- ==== Sys2Proof/Laws/Binary64.lean ====
section
/-! SUPPORT. What the rounding RNE64 of 00_scope R10 can do: the result is finite and within half a last place. -/

namespace Sys2Proof.Machine

theorem roundHalfEven_close (a b : Nat) (hb : 0 < b) :
    2 * (roundHalfEven a b * b) ≤ 2 * a + b ∧ 2 * a ≤ 2 * (roundHalfEven a b * b) + b := by
  have hd := Nat.div_add_mod a b
  have hm := Nat.mod_lt a hb
  rw [Nat.mul_comm] at hd
  simp only [roundHalfEven]
  split
  · rw [Nat.add_mul]; omega
  · split
    · omega
    · rcases Nat.mod_two_eq_zero_or_one (a / b) with h | h <;> rw [h, Nat.add_mul] <;> omega

theorem roundHalfEven_bounds (a b : Nat) : a / b ≤ roundHalfEven a b ∧ roundHalfEven a b ≤ a / b + 1 := by
  simp only [roundHalfEven]
  split
  · omega
  · split <;> omega

theorem F64.ofNat_toNat (p : Nat) (h : p < 2 ^ 64) : (BitVec.ofNat 64 p : F64).toNat = p := by
  rw [BitVec.toNat_ofNat, Nat.mod_eq_of_lt h]

theorem F64.magnitude_ofNat (neg : Nat) (e m : Nat) (hn : neg ≤ 1) (he : e ≤ 2000) (hm : m ≤ 2 ^ 53)
    (h : e = 0 ∨ 2 ^ 52 ≤ m) :
    F64.finite (BitVec.ofNat 64 (neg * 2 ^ 63 + (e * 2 ^ 52 + m))) = true ∧
      F64.magnitude (BitVec.ofNat 64 (neg * 2 ^ 63 + (e * 2 ^ 52 + m))) = m * 2 ^ e := by
  have hp : neg * 2 ^ 63 + (e * 2 ^ 52 + m) < 2 ^ 64 := by omega
  have key : F64.expField (BitVec.ofNat 64 (neg * 2 ^ 63 + (e * 2 ^ 52 + m))) =
        (if m < 2 ^ 52 then 0 else if m < 2 ^ 53 then e + 1 else e + 2) ∧
      F64.fracField (BitVec.ofNat 64 (neg * 2 ^ 63 + (e * 2 ^ 52 + m))) =
        (if m < 2 ^ 52 then m else if m < 2 ^ 53 then m - 2 ^ 52 else 0) := by
    rw [F64.expField, F64.fracField, F64.ofNat_toNat _ hp]
    constructor <;> (split; omega; split <;> omega)
  rw [F64.finite, F64.magnitude, key.1, key.2]
  refine ⟨by simp only [bne_iff_ne]; split; decide; split <;> omega, ?_⟩
  by_cases h1 : m < 2 ^ 52
  · have : e = 0 := by omega
    rw [if_pos h1, if_pos h1, if_pos rfl, this, Nat.pow_zero, Nat.mul_one]
  · by_cases h2 : m < 2 ^ 53
    · simp only [h1, h2, if_false, if_true, Nat.add_one_ne_zero, Nat.add_sub_cancel]
      congr 1; omega
    · have : m = 2 ^ 53 := by omega
      subst this
      simp only [show ¬(2 ^ 53 : Nat) < 2 ^ 52 by omega, show ¬(2 ^ 53 : Nat) < 2 ^ 53 by omega, if_false,
        show ¬ e + 2 = 0 by omega]
      rw [show e + 2 - 1 = e + 1 by omega, Nat.pow_succ]; ring

/-- The magnitude bits of the rounded a/b are an exponent and a significand whose product is within half a last
place of a/b. -/
theorem rneMagnitude_close (a b : Nat) (hb : 0 < b) (hr : a < b * 2 ^ 800) :
    ∃ e m, rneMagnitude a b = e * 2 ^ 52 + m ∧ e ≤ 2000 ∧ m ≤ 2 ^ 53 ∧ (e = 0 ∨ 2 ^ 52 ≤ m) ∧
      2 * (m * 2 ^ e * b) ≤ 2 * (a * f64Unit) + b * 2 ^ e ∧
      2 * (a * f64Unit) ≤ 2 * (m * 2 ^ e * b) + b * 2 ^ e ∧ (e = 0 ∨ 2 ^ (e + 52) * b ≤ a * f64Unit) := by
  set n := a * f64Unit with hn
  set q := n / b with hq
  have hqlt : q < 2 ^ (800 + 1074) := by
    rw [hq, Nat.div_lt_iff_lt_mul hb, hn]
    calc a * f64Unit < b * 2 ^ 800 * f64Unit := Nat.mul_lt_mul_of_pos_right hr (by rw [f64Unit]; positivity)
      _ = 2 ^ (800 + 1074) * b := by rw [f64Unit, Nat.pow_add _ 800, Nat.mul_comm b, Nat.mul_assoc, Nat.mul_comm b, Nat.mul_assoc]
  set e := q.log2 - 52 with he
  have hlog : q.log2 < 1874 := by
    by_cases h0 : q = 0
    · simp [h0]
    · exact (Nat.log2_lt h0).2 hqlt
  have hb2 : 0 < b * 2 ^ e := by positivity
  have hup : n < 2 ^ 53 * (b * 2 ^ e) := by
    have h1 : q < 2 ^ (e + 53) := lt_of_lt_of_le Nat.lt_log2_self (Nat.pow_le_pow_right (by omega) (by omega))
    have h2 := (Nat.div_lt_iff_lt_mul hb).1 h1
    rw [Nat.pow_add] at h2
    calc n < 2 ^ e * 2 ^ 53 * b := h2
      _ = 2 ^ 53 * (b * 2 ^ e) := by ring
  have hlow : e = 0 ∨ 2 ^ (e + 52) * b ≤ n := by
    by_cases h : e = 0
    · exact .inl h
    · right
      have h0 : q ≠ 0 := by rintro h0; apply h; rw [he, h0]; simp
      have h1 : 2 ^ (e + 52) ≤ q := by
        rw [show e + 52 = q.log2 by omega]; exact Nat.log2_self_le h0
      calc 2 ^ (e + 52) * b ≤ q * b := Nat.mul_le_mul_right _ h1
        _ ≤ n := Nat.div_mul_le_self n b
  set m := roundHalfEven n (b * 2 ^ e) with hmdef
  have hc := roundHalfEven_close n _ hb2
  have hbd := roundHalfEven_bounds n (b * 2 ^ e)
  have hm53 : m ≤ 2 ^ 53 := by
    have : n / (b * 2 ^ e) < 2 ^ 53 := (Nat.div_lt_iff_lt_mul hb2).2 hup
    omega
  have hm52 : e = 0 ∨ 2 ^ 52 ≤ m := by
    rcases hlow with h | h
    · exact .inl h
    · right
      refine le_trans ?_ hbd.1
      rw [Nat.le_div_iff_mul_le hb2]
      calc 2 ^ 52 * (b * 2 ^ e) = 2 ^ (e + 52) * b := by rw [Nat.pow_add]; ring
        _ ≤ n := h
  have heq : rneMagnitude a b = e * 2 ^ 52 + m := by
    show min (e * 2 ^ 52 + m) (0x7FF * 2 ^ 52) = _
    rw [Nat.min_eq_left]; omega
  have hcomm : m * 2 ^ e * b = m * (b * 2 ^ e) := by ring
  exact ⟨e, m, heq, by omega, hm53, hm52, by rw [hcomm]; exact hc.1, by rw [hcomm]; exact hc.2, hlow⟩

theorem F64.sign_ofNat_pos (p : Nat) (h : p < 2 ^ 63) : F64.sign (BitVec.ofNat 64 p) = false := by
  rw [F64.sign, BitVec.getLsbD_ofNat]
  simp [Nat.testBit_lt_two_pow h]

theorem F64.sign_ofNat_neg (p : Nat) (h : p < 2 ^ 63) : F64.sign (BitVec.ofNat 64 (2 ^ 63 + p)) = true := by
  rw [F64.sign, BitVec.getLsbD_ofNat, Nat.testBit_two_pow_add_eq, Nat.testBit_lt_two_pow h]; rfl

theorem f64Unit_cast : (f64Unit : ℚ) = 2 ^ 1074 := by rw [f64Unit, Nat.cast_pow, Nat.cast_ofNat]

/-- Half a last place as a bound on the error: v units against x/d, the last place being E units. -/
theorem half_place_close (v x d U E : ℚ) (hd : 0 < d) (hU : U = 2 ^ 1074)
    (hup : 2 * v * d ≤ 2 * (x * U) + d * E) (hlo : 2 * (x * U) ≤ 2 * v * d + d * E)
    (hle : E = 1 ∨ E * 2 ^ 52 * d ≤ x * U) : |v / U - x / d| ≤ max (x / d / 2 ^ 53) (1 / 2 ^ 1075) := by
  have hu : 0 < U := by rw [hU]; exact pow_pos two_pos _
  have hhalf : |v / U - x / d| ≤ E / (2 * U) := by
    have h1 : v / U - x / d = (2 * v * d - 2 * (x * U)) / (2 * (U * d)) := by field_simp
    rw [h1, abs_div, abs_of_pos (by positivity : 0 < 2 * (U * d)), div_le_div_iff₀ (by positivity) (by positivity)]
    have h2 : |2 * v * d - 2 * (x * U)| ≤ d * E := abs_le.2 ⟨by linarith, by linarith⟩
    calc |2 * v * d - 2 * (x * U)| * (2 * U) ≤ d * E * (2 * U) := mul_le_mul_of_nonneg_right h2 (by positivity)
      _ = E * (2 * (U * d)) := by ring
  refine hhalf.trans ?_
  have h53 : (0 : ℚ) < 2 ^ 53 := by positivity
  rcases hle with h | h
  · have h3 : E / (2 * U) = 1 / 2 ^ 1075 := by rw [h, hU, ← pow_succ']
    rw [h3]
    exact le_max_right _ _
  · have h3 : E / (2 * U) ≤ x / d / 2 ^ 53 := by
      rw [div_div, div_le_div_iff₀ (by positivity) (by positivity)]
      linarith
    exact h3.trans (le_max_left _ _)

/-- RNE64 of a rational in range is finite and within half a last place of it: half a unit of the 53rd bit, or
half a smallest subnormal. -/
theorem rne64_close (num : Int) (den : Nat) (hd : 0 < den) (hr : num.natAbs < den * 2 ^ 800) :
    F64.finite (rne64 num den) = true ∧
      |F64.toRat (rne64 num den) - num / den| ≤ max (|(num / den : ℚ)| / 2 ^ 53) (1 / 2 ^ 1075) := by
  obtain ⟨e, m, hq, he, hm, h0, hup, hlo, hle⟩ := rneMagnitude_close num.natAbs den hd hr
  have hp : e * 2 ^ 52 + m < 2 ^ 63 := by omega
  -- the magnitude
  have hmag : F64.finite (rne64 num den) = true ∧
      F64.scaled (rne64 num den) = num.sign * (m * 2 ^ e : Nat) := by
    have hz : num = 0 → m = 0 := by
      intro h; rw [h] at hup; simp at hup
      by_contra hm0
      have : 1 * (2 ^ e * den) ≤ m * (2 ^ e * den) := Nat.mul_le_mul_right _ (Nat.one_le_iff_ne_zero.2 hm0)
      have h3 : 0 < 2 ^ e * den := by positivity
      have h4 : m * 2 ^ e * den = m * (2 ^ e * den) := by ring
      have h5 : den * 2 ^ e = 2 ^ e * den := by ring
      omega
    simp only [rne64, hq]
    by_cases hs : 0 ≤ num
    · have hf := F64.magnitude_ofNat 0 e m (by omega) he hm h0
      simp only [Nat.zero_mul, Nat.zero_add] at hf
      rw [if_pos hs]
      refine ⟨hf.1, ?_⟩
      rw [F64.scaled, F64.sign_ofNat_pos _ hp, hf.2]
      rcases hs.eq_or_lt with h | h
      · simp [hz h.symm]
      · simp [Int.sign_eq_one_of_pos h]
    · rw [if_neg hs]
      have hsg : num.sign = -1 := Int.sign_eq_neg_one_of_neg (by omega)
      split
      · rename_i hzero
        have hm0 : m = 0 := by omega
        subst hm0
        rw [hsg, Nat.zero_mul]
        split <;> exact ⟨by decide, by decide⟩
      · have hf := F64.magnitude_ofNat 1 e m (by omega) he hm h0
        rw [Nat.one_mul] at hf
        refine ⟨hf.1, ?_⟩
        rw [F64.scaled, F64.sign_ofNat_neg _ hp, hf.2, hsg]; simp
  refine ⟨hmag.1, ?_⟩
  have hD : (0 : ℚ) < den := by exact_mod_cast hd
  -- exact magnitudes
  have habs : ((num.natAbs : ℕ) : ℚ) = |(num : ℚ)| := by
    rw [Nat.cast_natAbs, Int.cast_abs]
  have hsgn : (num : ℚ) = num.sign * |(num : ℚ)| := by
    rw [← habs, ← Int.cast_natCast, ← Int.cast_mul, Int.sign_mul_natAbs]
  have hdiff : |F64.toRat (rne64 num den) - num / den| ≤
      |((m * 2 ^ e : ℕ) : ℚ) / f64Unit - |(num : ℚ)| / den| := by
    rw [F64.toRat, hmag.2]
    have : ((num.sign * ((m * 2 ^ e : ℕ) : ℤ) : ℤ) : ℚ) / f64Unit - num / den =
        num.sign * (((m * 2 ^ e : ℕ) : ℚ) / f64Unit - |(num : ℚ)| / den) := by
      conv_lhs => rw [hsgn]
      push_cast; ring
    rw [this, abs_mul]
    have h1 : |(num.sign : ℚ)| ≤ 1 := by
      rcases lt_trichotomy num 0 with h | h | h
      · simp [Int.sign_eq_neg_one_of_neg h]
      · simp [h]
      · simp [Int.sign_eq_one_of_pos h]
    exact mul_le_of_le_one_left (abs_nonneg _) h1
  refine hdiff.trans ?_
  rw [abs_div, abs_of_pos hD]
  refine half_place_close _ _ _ _ (2 ^ e) hD f64Unit_cast ?_ ?_ ?_
  · rw [← habs]; exact_mod_cast (by linarith [hup] : 2 * (m * 2 ^ e) * den ≤ 2 * (num.natAbs * f64Unit) + den * 2 ^ e)
  · rw [← habs]; exact_mod_cast (by linarith [hlo] : 2 * (num.natAbs * f64Unit) ≤ 2 * (m * 2 ^ e) * den + den * 2 ^ e)
  · rcases hle with h | h
    · left; rw [h, pow_zero]
    · right; rw [← habs, ← pow_add]; exact_mod_cast h

end Sys2Proof.Machine
end

