-- ==== Sys2Proof/Machine/Exact.lean ====
section
/-! DEFINITION. The exact transform XF of 43_coordinate_transform R380 over the reals, and the conditions R381 puts on
a result. Laws/Exact.lean shows that a result that meets them exists. No command computes with XF: it stands in
propositions only. -/

namespace Sys2Proof.Machine

/-- `sinD(a)` of 00_scope R10: the exact sine of a degrees. -/
noncomputable def sinD (a : ℝ) : ℝ := Real.sin (a * Real.pi / 180)

/-- `cosD(a)` of 00_scope R10: the exact cosine of a degrees. -/
noncomputable def cosD (a : ℝ) : ℝ := Real.cos (a * Real.pi / 180)

/-- One component of XF (R380), the formula as the source writes it. -/
noncomputable def xf (rho phi theta off : F64) : CtuComp → ℝ
  | .x => F64.toRat rho * sinD (F64.toRat phi) * cosD (F64.toRat theta) + F64.toRat off * sinD (F64.toRat theta)
  | .y => F64.toRat rho * sinD (F64.toRat phi) * sinD (F64.toRat theta) + F64.toRat off * cosD (F64.toRat theta)
  | .z => F64.toRat rho * cosD (F64.toRat phi)

/-! ## What R381 asks of a result -/

/-- The range of R381 condition 1. -/
def ctuInRange (rho off : F64) : Prop := |F64.toRat rho| ≤ 2 ^ 64 ∧ |F64.toRat off| ≤ 2 ^ 64

/-- The bound of R381 condition 1, P_CTU_EPS · (|rho| + |off|). -/
def ctuBound (eps : ℚ) (rho off : F64) : ℚ := eps * (|F64.toRat rho| + |F64.toRat off|)

/-- How far the pattern `r` lies from one component of XF (R381 condition 1). -/
noncomputable def ctuError (rho phi theta off : F64) (c : CtuComp) (r : F64) : ℝ :=
  |(F64.toRat r : ℝ) - xf rho phi theta off c|

/-- Conditions 1 and 3 of R381 on the pattern `r` as one result; outside the range nothing is asked by condition 1
(93 U2). Where binary64 holds no pattern within the bound, condition 1 can be met by none, and `r` is then a pattern
nearest to XF (DESIGN CHOICE, notes/assumptions/10.md). -/
structure CtuAdmits (eps : ℚ) (rho phi theta off : F64) (c : CtuComp) (r : F64) : Prop where
  finite : ctuInRange rho off → F64.finite r = true
  accurate : ctuInRange rho off →
    (∃ b, F64.finite b = true ∧ ctuError rho phi theta off c b ≤ ctuBound eps rho off) →
    ctuError rho phi theta off c r ≤ ctuBound eps rho off
  nearest : ctuInRange rho off →
    (¬∃ b, F64.finite b = true ∧ ctuError rho phi theta off c b ≤ ctuBound eps rho off) →
    ∀ b, F64.finite b = true → ctuError rho phi theta off c r ≤ ctuError rho phi theta off c b
  zero : F64.isZero rho = true → c = .z → F64.isZero r = true

end Sys2Proof.Machine
end

