-- ==== Sys2Proof/Laws/Exact.lean ====
section
/-! SUPPORT. What the conditions of 43_coordinate_transform R381 on a result amount to: some pattern meets them, and
a pattern that does lies within P_CTU_EPS · (|rho| + |off|) of XF wherever binary64 is fine enough for that bound. -/

namespace Sys2Proof.Machine

/-! ## Patterns near a value -/

theorem toRat_of_isZero (b : F64) (h : F64.isZero b = true) : F64.toRat b = 0 := by
  have h0 : b.toNat % 2 ^ 63 = 0 := by simpa [F64.isZero] using h
  have he : F64.expField b = 0 := by rw [F64.expField]; omega
  have hf : F64.fracField b = 0 := by rw [F64.fracField]; omega
  have hm : F64.magnitude b = 0 := by rw [F64.magnitude, if_pos he, hf]
  rw [F64.toRat, F64.scaled, hm]
  generalize (f64Unit : ℚ) = u
  simp

/-- RNE64 of a rational up to 2^66 is finite and within half a last place. -/
theorem rne64_rat_close (q : ℚ) (h : |q| ≤ 2 ^ 66) :
    F64.finite (rne64 q.num q.den) = true ∧
      |F64.toRat (rne64 q.num q.den) - q| ≤ max (|q| / 2 ^ 53) (1 / 2 ^ 1075) := by
  have hr : q.num.natAbs < q.den * 2 ^ 800 := by
    have h1 : |(q.num : ℚ)| ≤ 2 ^ 66 * q.den := by
      rw [← Rat.num_div_den q, abs_div, Nat.abs_cast, div_le_iff₀ (by exact_mod_cast q.den_pos)] at h
      exact h
    have h2 : q.num.natAbs ≤ 2 ^ 66 * q.den := by
      rw [← Int.cast_abs, ← Nat.cast_natAbs] at h1; exact_mod_cast h1
    calc q.num.natAbs ≤ 2 ^ 66 * q.den := h2
      _ < 2 ^ 800 * q.den := Nat.mul_lt_mul_of_pos_right (Nat.pow_lt_pow_right (by decide) (by decide)) q.den_pos
      _ = q.den * 2 ^ 800 := Nat.mul_comm _ _
  have h := rne64_close q.num q.den q.den_pos hr
  rwa [Rat.num_div_den] at h

/-- Of the finite patterns, one is nearest to a given value. -/
theorem exists_nearest (x : ℝ) :
    ∃ r, F64.finite r = true ∧ ∀ b, F64.finite b = true → |(F64.toRat r : ℝ) - x| ≤ |(F64.toRat b : ℝ) - x| := by
  have : Nonempty {b : F64 // F64.finite b = true} := ⟨0, by decide⟩
  obtain ⟨r, hr⟩ := Finite.exists_min fun b : {b : F64 // F64.finite b = true} => |(F64.toRat b : ℝ) - x|
  exact ⟨r.1, r.2, fun b hb => hr ⟨b, hb⟩⟩

/-- The pattern nearest to a real up to 2^65 is within half a last place of it. -/
theorem nearest_close (x : ℝ) (hx : |x| ≤ 2 ^ 65) (r : F64)
    (hn : ∀ b, F64.finite b = true → |(F64.toRat r : ℝ) - x| ≤ |(F64.toRat b : ℝ) - x|) :
    |(F64.toRat r : ℝ) - x| ≤ max (|x| / 2 ^ 53) (1 / 2 ^ 1075) := by
  refine le_of_forall_pos_le_add fun δ hδ => ?_
  obtain ⟨q, hq1, hq2⟩ := exists_rat_btwn (lt_add_of_pos_right x (lt_min (half_pos hδ) one_pos))
  have hd : |(q : ℝ) - x| ≤ min (δ / 2) 1 := abs_le.2 ⟨by linarith [lt_min (half_pos hδ) one_pos], by linarith⟩
  have hd1 := hd.trans (min_le_left _ _)
  have hq : |(q : ℝ)| ≤ |x| + δ / 2 := by
    have := abs_sub_abs_le_abs_sub (q : ℝ) x
    linarith
  have hq66 : |q| ≤ 2 ^ 66 := by
    have h1 := abs_sub_abs_le_abs_sub (q : ℝ) x
    have h2 := hd.trans (min_le_right _ _)
    have h3 : |(q : ℝ)| ≤ 2 ^ 66 := by linarith [(by norm_num : (2 : ℝ) ^ 65 + 1 ≤ 2 ^ 66)]
    exact_mod_cast h3
  obtain ⟨hf, hc⟩ := rne64_rat_close q hq66
  have hc' : |(F64.toRat (rne64 q.num q.den) : ℝ) - q| ≤ max (|(q : ℝ)| / 2 ^ 53) (1 / 2 ^ 1075) := by
    have := (Rat.cast_le (K := ℝ)).2 hc
    rw [Rat.cast_max] at this
    simpa [-one_div] using this
  refine (hn _ hf).trans ((abs_sub_le _ (q : ℝ) _).trans ?_)
  have hm : max (|(q : ℝ)| / 2 ^ 53) (1 / 2 ^ 1075) ≤ max (|x| / 2 ^ 53) (1 / 2 ^ 1075) + δ / 2 := by
    refine max_le ?_ (le_add_of_le_of_nonneg (le_max_right _ _) (half_pos hδ).le)
    refine le_trans ?_ (add_le_add_left (le_max_left _ _) _)
    rw [div_le_iff₀ (by positivity), add_mul, div_mul_cancel₀ _ (by positivity)]
    have : δ / 2 * 1 ≤ δ / 2 * 2 ^ 53 := by gcongr; norm_num
    linarith
  linarith

/-! ## The exact transform -/

/-- A component of XF is at most |rho| + |off|. -/
theorem xf_bounded (rho phi theta off : F64) (c : CtuComp) :
    |xf rho phi theta off c| ≤ |(F64.toRat rho : ℝ)| + |(F64.toRat off : ℝ)| := by
  have b1 := fun x : ℝ => Real.abs_sin_le_one x
  have b2 := fun x : ℝ => Real.abs_cos_le_one x
  have two : ∀ r o a b : ℝ, |a| ≤ 1 → |b| ≤ 1 → |r * a + o * b| ≤ |r| + |o| := by
    intro r o a b ha hb
    calc _ ≤ |r| * |a| + |o| * |b| := by rw [← abs_mul, ← abs_mul]; exact abs_add_le _ _
      _ ≤ |r| * 1 + |o| * 1 := by gcongr
      _ = |r| + |o| := by ring
  have prod : ∀ a b : ℝ, |a| ≤ 1 → |b| ≤ 1 → |a * b| ≤ 1 := fun a b ha hb => by
    rw [abs_mul]; exact mul_le_one₀ ha (abs_nonneg _) hb
  cases c
  · simpa [xf, sinD, cosD, mul_assoc] using two (F64.toRat rho) (F64.toRat off) _ _ (prod _ _ (b1 _) (b2 _)) (b1 _)
  · simpa [xf, sinD, cosD, mul_assoc] using two (F64.toRat rho) (F64.toRat off) _ _ (prod _ _ (b1 _) (b1 _)) (b2 _)
  · simpa [xf, cosD] using two (F64.toRat rho) (F64.toRat off) _ 0 (b2 _) (by norm_num)

/-! ## The conditions on a result -/

theorem ctuError_zero {rho phi theta off : F64} {c : CtuComp} (hz : F64.isZero rho = true) (hc : c = .z) :
    ctuError rho phi theta off c 0 = 0 := by
  rw [ctuError, hc, xf, toRat_of_isZero rho hz, toRat_of_isZero 0 (by decide)]; simp

/-- Some pattern meets conditions 1 and 3 of R381: one nearest to XF. -/
theorem ctuAdmits_nonempty (eps : ℚ) (rho phi theta off : F64) (c : CtuComp) :
    Nonempty {r : F64 // CtuAdmits eps rho phi theta off c r} := by
  by_cases hz : F64.isZero rho = true ∧ c = .z
  · refine ⟨0, fun _ => by decide, fun _ h => ?_, fun _ _ b _ => ?_, fun _ _ => by decide⟩
    · obtain ⟨b, _, hb⟩ := h
      exact (ctuError_zero hz.1 hz.2).trans_le ((abs_nonneg _).trans hb)
    · exact (ctuError_zero hz.1 hz.2).trans_le (abs_nonneg _)
  · obtain ⟨r, hf, hn⟩ := exists_nearest (xf rho phi theta off c)
    exact ⟨r, fun _ => hf, fun _ ⟨b, hb, h⟩ => (hn b hb).trans h, fun _ _ => hn, fun h h' => absurd ⟨h, h'⟩ hz⟩

/-- In range a pattern that meets the conditions is within the bound of R381 or nearest to XF. -/
theorem CtuAdmits.cases {eps : ℚ} {rho phi theta off : F64} {c : CtuComp} {r : F64}
    (h : CtuAdmits eps rho phi theta off c r) (hr : ctuInRange rho off) :
    ctuError rho phi theta off c r ≤ ctuBound eps rho off ∨
      ∀ b, F64.finite b = true → ctuError rho phi theta off c r ≤ ctuError rho phi theta off c b := by
  by_cases he : ∃ b, F64.finite b = true ∧ ctuError rho phi theta off c b ≤ ctuBound eps rho off
  · exact .inl (h.accurate hr he)
  · exact .inr (h.nearest hr he)

/-- The bound of R381 itself: in range, for a P_CTU_EPS of at least 2^-53, it holds of every pattern that meets the
conditions wherever it is 0 or at least half a smallest subnormal. -/
theorem CtuAdmits.within {eps : ℚ} {rho phi theta off : F64} {c : CtuComp} {r : F64}
    (h : CtuAdmits eps rho phi theta off c r) (hr : ctuInRange rho off) (he : 1 / 2 ^ 53 ≤ eps)
    (hb : ctuBound eps rho off = 0 ∨ 1 / 2 ^ 1075 ≤ ctuBound eps rho off) :
    ctuError rho phi theta off c r ≤ ctuBound eps rho off := by
  refine (h.cases hr).elim id fun hn => ?_
  set m : ℚ := |F64.toRat rho| + |F64.toRat off| with hm
  have hm' : (m : ℝ) = |(F64.toRat rho : ℝ)| + |(F64.toRat off : ℝ)| := by rw [hm]; push_cast; rfl
  have hx : |xf rho phi theta off c| ≤ (m : ℝ) := hm' ▸ xf_bounded rho phi theta off c
  have hm0 : 0 ≤ m := by positivity
  have he' : m / 2 ^ 53 ≤ ctuBound eps rho off := by
    rw [ctuBound, ← hm, div_eq_inv_mul, ← one_div]; exact mul_le_mul_of_nonneg_right he hm0
  rcases hb with hb | hb
  · have : m = 0 := by
      have : m / 2 ^ 53 ≤ 0 := hb ▸ he'
      linarith
    have h0 : xf rho phi theta off c = 0 := abs_nonpos_iff.1 (by simpa [this] using hx)
    refine (hn 0 (by decide)).trans ?_
    rw [ctuError, h0, toRat_of_isZero 0 (by decide), hb]; simp
  · have h65 : |xf rho phi theta off c| ≤ 2 ^ 65 := by
      refine hx.trans ?_
      have : m ≤ 2 ^ 64 + 2 ^ 64 := add_le_add hr.1 hr.2
      have h2 : (m : ℝ) ≤ ((2 ^ 64 + 2 ^ 64 : ℚ) : ℝ) := Rat.cast_le.2 this
      refine h2.trans (by norm_num)
    refine (nearest_close _ h65 r hn).trans (max_le ?_ ?_)
    · refine le_trans ?_ ((Rat.cast_le (K := ℝ)).2 he')
      push_cast
      gcongr
    · have := (Rat.cast_le (K := ℝ)).2 hb
      simpa [-one_div] using this

end Sys2Proof.Machine
end

