-- ==== Sys2Proof/Machine/Transform.lean ====
section
/-! DEFINITION. The coordinate transform unit (43_coordinate_transform). P_CTU_FN is exact where R381 condition 2
fixes it, and elsewhere a free value that meets conditions 1 and 3 (notes/assumptions/9.md, 10.md, 11.md). -/

namespace Sys2Proof.Machine

/-! ## The quadrant case (R381 condition 2) -/

/-- 90 degrees in units of 2^-1074. -/
def ninety : Int := 90 * (f64Unit : Int)

/-- The quadrant 0 to 3 of a finite angle that is an integer multiple of 90 degrees. -/
def quadrantOf (a : F64) : Option Nat :=
  if F64.scaled a % ninety = 0 then some (F64.scaled a / ninety % 4).toNat else none

/-- The sine of q · 90 degrees, exactly. -/
def quadrantSin : Nat → Int
  | 1 => 1
  | 3 => -1
  | _ => 0

/-- The cosine of q · 90 degrees, exactly. -/
def quadrantCos : Nat → Int
  | 0 => 1
  | 2 => -1
  | _ => 0

/-- A product of a pattern and exact factors 0, 1 or -1: its value in units of 2^-1074, and its sign as binary64
multiplication gives it (a zero factor has the sign +). -/
structure SignedProduct where
  neg : Bool
  val : Int
deriving DecidableEq, Repr

/-- The product of a pattern and exact factors. -/
def signedProduct (m : F64) (factors : List Int) : SignedProduct where
  neg := factors.foldl (fun n f => n != decide (f < 0)) (F64.sign m)
  val := factors.foldl (fun v f => v * f) (F64.scaled m)

/-- RNE64 of an exact sum of products (R381 condition 2). A zero result is +0.0 unless every product is -0.0; then
`minus` decides. -/
def exactSum (minus : Bool) (ts : List SignedProduct) : F64 :=
  let v := (ts.map (·.val)).sum
  if v = 0 then
    (if minus && ts.all (fun t => decide (t.val = 0) && t.neg) then F64.minusZero else 0)
  else rne64 v f64Unit

/-- One result where PHI and THETA lie on quadrants qp and qt (R380, R381 condition 2). For RHO a zero, condition 3
and condition 2 together force +0.0 (notes/assumptions/11.md). -/
def ctuQuadrant (rho phi theta off : F64) (qp qt : Nat) (c : CtuComp) : F64 :=
  let minus := !F64.isZero rho && Config.ctuZeroIsNegative rho phi theta off c
  match c with
  | .x => exactSum minus
      [signedProduct rho [quadrantSin qp, quadrantCos qt], signedProduct off [quadrantSin qt]]
  | .y => exactSum minus
      [signedProduct rho [quadrantSin qp, quadrantSin qt], signedProduct off [quadrantCos qt]]
  | .z => exactSum minus [signedProduct rho [quadrantCos qp]]

/-! ## The general case (R381 conditions 1 and 3) -/

/-- One result where PHI or THETA is no multiple of 90 degrees: the free value, any pattern that meets conditions 1
and 3. There is one (`ctuAdmits_nonempty`). -/
def ctuGeneral (eps : ℚ) (rho phi theta off : F64) (c : CtuComp) : F64 :=
  have := ctuAdmits_nonempty eps rho phi theta off c
  (@Config.ctuResult rho phi theta off c (CtuAdmits eps rho phi theta off c) ⟨Config.anyMember ()⟩).val

/-- P_CTU_FN (R381), one result, for the error bound P_CTU_EPS: for RHO a zero the results do not depend on PHI
(condition 3), so PHI is taken as +0.0 there; determinism (condition 4) holds because it is a function. -/
def ctuFn (eps : ℚ) (rho phi theta off : F64) (c : CtuComp) : F64 :=
  let phi := if F64.isZero rho then 0 else phi
  match quadrantOf phi, quadrantOf theta with
  | some qp, some qt => ctuQuadrant rho phi theta off qp qt c
  | _, _ => ctuGeneral eps rho phi theta off c

/-! ## The command -/

/-- P_CTU_FN at the operand registers, one result (43_coordinate_transform R382). -/
def State.ctuResult (s : State) (c : CtuComp) : F64 :=
  ctuFn s.params.ctuEps s.ctu.rho s.ctu.phi s.ctu.theta s.ctu.offset c

/-- CTU_XFORM (43_coordinate_transform R382). It does not check BUSY_NOW. -/
def execCtuXform (s : State) : Host.Outcome State Fault Refusal :=
  if s.ctuOperandsFinite then
    .next (State.complete .ok
      { s with ctu := { s.ctu with x := s.ctuResult .x, y := s.ctuResult .y, z := s.ctuResult .z } })
  else .next (s.reject .ctuNonfinite)

end Sys2Proof.Machine
end

