-- ==== Sys2Proof/Machine/Dispatch.lean ====
section
/-! DEFINITION. The command dispatch of 30_encoding R152 and R156: one arm per command. -/

namespace Sys2Proof.Machine

def exec (i : Instr) (s : State) : Host.Outcome State Fault Refusal :=
  match i with
  | .nop => Sys2Proof.Machine.execNop s
  | .pktRead => Sys2Proof.Machine.execPktRead s
  | .pktCheck => Sys2Proof.Machine.execPktCheck s
  | .setRes => Sys2Proof.Machine.execSetRes s
  | .setSpeed => Sys2Proof.Machine.execSetSpeed s
  | .setCorr => Sys2Proof.Machine.execSetCorr s
  | .turn => Sys2Proof.Machine.execTurn s
  | .setRings => Sys2Proof.Machine.execSetRings s
  | .setPrerot => Sys2Proof.Machine.execSetPrerot s
  | .setRto => Sys2Proof.Machine.execSetRto s
  | .sweepStart => Sys2Proof.Machine.execSweepStart s
  | .ringDone => Sys2Proof.Machine.execRingDone s
  | .sweepCancel => Sys2Proof.Machine.execSweepCancel s
  | .ctuXform => Sys2Proof.Machine.execCtuXform s

end Sys2Proof.Machine
end

