-- ==== Sys2Proof/Machine/Flags.lean ====
section
/-! DEFINITION. The status flags and computed registers (10_state R35): STATUS, PKT_STATUS, RES, CRC_CALC and the
field views, and the codes of the enumerations in them. -/

namespace Sys2Proof.Machine

/-- The 4-bit code of a result (30_encoding R155). -/
def ResultCode.code : ResultCode → BitVec 4
  | .ok => 0
  | .pktLength => 1
  | .pktSentinel => 2
  | .pktCrc => 3
  | .invalidResolution => 4
  | .invalidSpeed => 5
  | .stepsTooSmall => 6
  | .resolutionTooFine => 7
  | .busy => 8
  | .illegalCommand => 9
  | .invalidRings => 10
  | .invalidCorr => 11
  | .ctuNonfinite => 12
  | .notInRingWait => 13
  | .noSweep => 14

/-- PKT_LAST, the code of a verdict (10_state R48). -/
def PktVerdict.code : PktVerdict → BitVec 4
  | .ok => 0
  | .length => 1
  | .sentinel => 2
  | .crc => 3

/-- MSCODE (41_stepper_drive R260). -/
def Preset.code : Preset → BitVec 3
  | .full => 0
  | .half => 1
  | .quarter => 2
  | .eighth => 3
  | .sixteenth => 4

/-- SDU_STATE (10_state R77). -/
def SduState.code : SduState → BitVec 2
  | .idle => 0
  | .setup => 1
  | .high => 2
  | .low => 3

/-- SEQ_STATE (10_state R78). -/
def SeqState.code : SeqState → BitVec 3
  | .idle => 0
  | .prerot => 1
  | .ringWait => 2
  | .advance => 3
  | .returning => 4

/-- SEQ_END (10_state R78). -/
def SeqEnd.code : SeqEnd → BitVec 2
  | .none => 0
  | .complete => 1
  | .cancelled => 2
  | .timeout => 3

/-- STATUS (10_state R42). STEP, DIR, IRQ and MS are the lines' current values, the rest the state's. -/
def State.statusWord (s : State) : Word :=
  0#12 ++ s.sdu.state.code ++ s.ssm.seqEnd.code ++ 0#1 ++ s.ssm.state.code ++ 0#1 ++ s.lines.ms ++
    BitVec.ofBool s.lines.irq ++ BitVec.ofBool s.lines.dir ++ BitVec.ofBool s.lines.step ++
    BitVec.ofBool s.pvu.pktValid ++ BitVec.ofBool s.ssm.cancelPend ++ BitVec.ofBool (s.ssm.state == .ringWait) ++
    BitVec.ofBool (s.ssm.state != .idle) ++ BitVec.ofBool (s.sdu.state != .idle)

/-- PKT_STATUS (10_state R48). -/
def State.pktStatusWord (s : State) : Word := 0#24 ++ s.pvu.pktLast.code ++ 0#3 ++ BitVec.ofBool s.pvu.pktValid

/-- RES (10_state R56): MSCODE, MD and the selector triple. -/
def State.resWord (s : State) : Word :=
  0#13 ++ MsTable.at s.params.msTable s.sdu.mscode ++ 0#3 ++ BitVec.ofNat 5 (Preset.md s.sdu.mscode) ++ 0#5 ++
    Preset.code s.sdu.mscode

/-- Byte j of PKTBUF; the byte at 47, which does not exist, reads 0 (10_state R54). -/
def State.pktByte (s : State) (j : Nat) : Byte := if j < PKT_LEN then Memory.read s.pvu.pktbuf j else 0

/-- CRC_CALC (10_state R51). -/
def State.crcCalcWord (s : State) : Word :=
  (crc8 s.params.crcTable (Memory.bytes s.pvu.pktbuf CRC_POS)).setWidth 32

/-- F_HDR (10_state R52): start byte, byte 1 and checksum. -/
def State.fHdrWord (s : State) : Word := 0#8 ++ s.pktByte 46 ++ s.pktByte 1 ++ s.pktByte 0

/-- A little-endian 16-bit field of PKTBUF at (o, o+1), zero-extended (10_state R53, 20_memory R101 and R102). -/
def State.field16 (s : State) (o : Nat) : Word := (le16 (s.pktByte o) (s.pktByte (o + 1))).setWidth 32

/-- PKTBUF_Wk (10_state R54): byte 4k in bits 7:0. -/
def State.pktbufWord (s : State) (k : Nat) : Word :=
  s.pktByte (4 * k + 3) ++ s.pktByte (4 * k + 2) ++ s.pktByte (4 * k + 1) ++ s.pktByte (4 * k)

/-- SAMPLE_i (10_state R55): distance in bits 15:0, intensity in bits 23:16. -/
def State.sampleWord (s : State) (i : Nat) : Word :=
  0#8 ++ s.pktByte (8 + 3 * i) ++ le16 (s.pktByte (6 + 3 * i)) (s.pktByte (7 + 3 * i))

/-- LO half of a 64-bit quantity (10_state R36). -/
def lo32 (v : DWord) : Word := v.setWidth 32

/-- HI half of a 64-bit quantity (10_state R36). -/
def hi32 (v : DWord) : Word := v.extractLsb' 32 32

/-- A 64-bit quantity with its LO half replaced (44_general R414). -/
def setLo32 (v : DWord) (w : Word) : DWord := hi32 v ++ w

/-- A 64-bit quantity with its HI half replaced (44_general R414). -/
def setHi32 (v : DWord) (w : Word) : DWord := w ++ lo32 v

end Sys2Proof.Machine
end

