-- ==== Sys2Proof/Machine/RegMap.lean ====
section
/-! DEFINITION. The register map of 10_state R36: addresses, the value a read returns (44_general R412) and what a
write does to every register but CMD (44_general R413 to R418). -/

namespace Sys2Proof.Machine

/-- The byte address of a register in the window (10_state R36). -/
def Reg.addr : Reg → Nat
  | .id => 0x000
  | .cmd => 0x004
  | .arg0 => 0x008
  | .arg1 => 0x00C
  | .result => 0x010
  | .status => 0x014
  | .err => 0x018
  | .irqEn => 0x01C
  | .irqPend => 0x020
  | .swphase => 0x024
  | .rxCount => 0x100
  | .pktStatus => 0x104
  | .resyncCnt => 0x108
  | .pktOkCnt => 0x10C
  | .pktErrCnt => 0x110
  | .crcCalc => 0x114
  | .fHdr => 0x118
  | .fSpeed => 0x11C
  | .fStart => 0x120
  | .fEnd => 0x124
  | .fTime => 0x128
  | .pktbufW k => 0x140 + 4 * k.val
  | .sample i => 0x180 + 4 * i.val
  | .res => 0x200
  | .speed => 0x204
  | .corrLo => 0x208
  | .corrHi => 0x20C
  | .posLo => 0x210
  | .posHi => 0x214
  | .angleLo => 0x218
  | .angleHi => 0x21C
  | .stepCntLo => 0x220
  | .stepCntHi => 0x224
  | .half => 0x228
  | .turnNLo => 0x22C
  | .turnNHi => 0x230
  | .rings => 0x300
  | .prerot => 0x304
  | .rto => 0x308
  | .spring => 0x30C
  | .ringIdx => 0x310
  | .failRing => 0x314
  | .sweepAccLo => 0x318
  | .sweepAccHi => 0x31C
  | .rhoLo => 0x400
  | .rhoHi => 0x404
  | .phiLo => 0x408
  | .phiHi => 0x40C
  | .thetaLo => 0x410
  | .thetaHi => 0x414
  | .offsetLo => 0x418
  | .offsetHi => 0x41C
  | .xLo => 0x420
  | .xHi => 0x424
  | .yLo => 0x428
  | .yHi => 0x42C
  | .zLo => 0x430
  | .zHi => 0x434

/-- The address of a register in the host's address space: the map is relative to the window's base (20_memory R109,
60_exceptions R453). Only the host uses it; the bus carries offsets in the window. -/
def Reg.hostAddr (p : Params) (r : Reg) : Nat := p.base + Reg.addr r

/-- The registers of the map outside the two windows (10_state R36). -/
def singleRegs : List Reg :=
  [.id, .cmd, .arg0, .arg1, .result, .status, .err, .irqEn, .irqPend, .swphase, .rxCount, .pktStatus,
    .resyncCnt, .pktOkCnt, .pktErrCnt, .crcCalc, .fHdr, .fSpeed, .fStart, .fEnd, .fTime, .res, .speed,
    .corrLo, .corrHi, .posLo, .posHi, .angleLo, .angleHi, .stepCntLo, .stepCntHi, .half, .turnNLo, .turnNHi,
    .rings, .prerot, .rto, .spring, .ringIdx, .failRing, .sweepAccLo, .sweepAccHi, .rhoLo, .rhoHi, .phiLo,
    .phiHi, .thetaLo, .thetaHi, .offsetLo, .offsetHi, .xLo, .xHi, .yLo, .yHi, .zLo, .zHi]

/-- Every register of the map (10_state R36). -/
def allRegs : List Reg :=
  singleRegs ++ ((List.finRange 12).map Reg.pktbufW ++ (List.finRange 12).map Reg.sample)

/-- The register a byte address maps; none for an unmapped address (20_memory R106). -/
def regAt (a : Nat) : Option Reg := allRegs.find? (fun r => Reg.addr r == a)

/-- value_R of 44_general R412: what a read of the register returns. -/
def State.regValue (s : State) : Reg → Word
  | .id => ID_VALUE
  | .cmd => s.host.lastcmd.setWidth 32
  | .arg0 => s.host.arg0
  | .arg1 => s.host.arg1
  | .result => s.host.result.code.setWidth 32
  | .status => s.statusWord
  | .err => s.host.err.setWidth 32
  | .irqEn => s.host.irqEn.setWidth 32
  | .irqPend => s.host.irqPend.setWidth 32
  | .swphase => s.host.swphase.setWidth 32
  | .rxCount => BitVec.ofNat 32 s.pvu.rxq.length
  | .pktStatus => s.pktStatusWord
  | .resyncCnt => s.pvu.resyncCnt
  | .pktOkCnt => s.pvu.pktOkCnt
  | .pktErrCnt => s.pvu.pktErrCnt
  | .crcCalc => s.crcCalcWord
  | .fHdr => s.fHdrWord
  | .fSpeed => s.field16 2
  | .fStart => s.field16 4
  | .fEnd => s.field16 42
  | .fTime => s.field16 44
  | .pktbufW k => s.pktbufWord k.val
  | .sample i => s.sampleWord i.val
  | .res => s.resWord
  | .speed => s.sdu.speed
  | .corrLo => lo32 s.sdu.corr
  | .corrHi => hi32 s.sdu.corr
  | .posLo => lo32 s.sdu.pos
  | .posHi => hi32 s.sdu.pos
  | .angleLo => lo32 s.angle
  | .angleHi => hi32 s.angle
  | .stepCntLo => lo32 s.sdu.stepCnt
  | .stepCntHi => hi32 s.sdu.stepCnt
  | .half => s.sdu.half
  | .turnNLo => lo32 s.sdu.turnN
  | .turnNHi => hi32 s.sdu.turnN
  | .rings => s.ssm.rings
  | .prerot => s.ssm.prerot
  | .rto => s.ssm.rto
  | .spring => s.ssm.spring
  | .ringIdx => s.ssm.ringIdx
  | .failRing => s.ssm.failRing
  | .sweepAccLo => lo32 s.ssm.sweepAcc
  | .sweepAccHi => hi32 s.ssm.sweepAcc
  | .rhoLo => lo32 s.ctu.rho
  | .rhoHi => hi32 s.ctu.rho
  | .phiLo => lo32 s.ctu.phi
  | .phiHi => hi32 s.ctu.phi
  | .thetaLo => lo32 s.ctu.theta
  | .thetaHi => hi32 s.ctu.theta
  | .offsetLo => lo32 s.ctu.offset
  | .offsetHi => hi32 s.ctu.offset
  | .xLo => lo32 s.ctu.x
  | .xHi => hi32 s.ctu.x
  | .yLo => lo32 s.ctu.y
  | .yHi => hi32 s.ctu.y
  | .zLo => lo32 s.ctu.z
  | .zHi => hi32 s.ctu.z

/-- MemRead(a, 4) of 44_general R412; an unmapped address reads 0 (20_memory R106). -/
def State.readWord (s : State) (a : Addr) : Word :=
  match regAt a.toNat with
  | some r => s.regValue r
  | none => 0

/-- What a write of `v` to a register other than CMD does (44_general R413): the operand, enable and phase
registers take the value (R414, R416, R418), ERR and IRQ_PEND are W1C (R415, R417), PKTBUF_Wk stores bytes
(40_packet_validator R209), and every read-only register ignores it. CMD is dispatched by the bus phase. -/
def State.writeReg (r : Reg) (v : Word) (s : State) : State :=
  match r with
  | .arg0 => { s with host := { s.host with arg0 := v } }
  | .arg1 => { s with host := { s.host with arg1 := v } }
  | .err => { s with host := { s.host with err := s.host.err &&& ~~~(v.setWidth 3) } }
  | .irqEn => { s with host := { s.host with irqEn := v.setWidth 7 } }
  | .irqPend => { s with host := { s.host with irqPend := s.host.irqPend &&& ~~~(v.setWidth 7) } }
  | .swphase => { s with host := { s.host with swphase := v.setWidth 3 } }
  | .pktbufW k => writePktbuf k v s
  | .rhoLo => { s with ctu := { s.ctu with rho := setLo32 s.ctu.rho v } }
  | .rhoHi => { s with ctu := { s.ctu with rho := setHi32 s.ctu.rho v } }
  | .phiLo => { s with ctu := { s.ctu with phi := setLo32 s.ctu.phi v } }
  | .phiHi => { s with ctu := { s.ctu with phi := setHi32 s.ctu.phi v } }
  | .thetaLo => { s with ctu := { s.ctu with theta := setLo32 s.ctu.theta v } }
  | .thetaHi => { s with ctu := { s.ctu with theta := setHi32 s.ctu.theta v } }
  | .offsetLo => { s with ctu := { s.ctu with offset := setLo32 s.ctu.offset v } }
  | .offsetHi => { s with ctu := { s.ctu with offset := setHi32 s.ctu.offset v } }
  | .cmd => s
  | .id | .result | .status | .rxCount | .pktStatus | .resyncCnt | .pktOkCnt | .pktErrCnt | .crcCalc | .fHdr
  | .fSpeed | .fStart | .fEnd | .fTime | .sample _ | .res | .speed | .corrLo | .corrHi | .posLo | .posHi
  | .angleLo | .angleHi | .stepCntLo | .stepCntHi | .half | .turnNLo | .turnNHi | .rings | .prerot | .rto
  | .spring | .ringIdx | .failRing | .sweepAccLo | .sweepAccHi | .xLo | .xHi | .yLo | .yHi | .zLo | .zHi => s

/-- MemWrite(a, 4, v) for every address but CMD's; an unmapped address ignores the write (20_memory R106). -/
def State.writeWord (a : Addr) (v : Word) (s : State) : State :=
  match regAt a.toNat with
  | some r => s.writeReg r v
  | none => s

end Sys2Proof.Machine
end

