-- ==== Sys2Proof/Machine/Bus.lean ====
section
/-! DEFINITION. The phases of a clock cycle (10_state R31) and the reset input (70_reset_and_hazards R490). -/

namespace Sys2Proof.Machine

/-- LASTCMD takes the low byte of a CMD write (10_state R38). -/
def State.setLastcmd (v : Word) (s : State) : State := { s with host := { s.host with lastcmd := opcField v } }

/-- The dispatch of a CMD write (30_encoding R152): LASTCMD takes the low byte whatever the word is, then the
command runs to its end, or the word is rejected as illegal (R157). -/
def dispatchCommand (v : Word) (s : State) : Host.Outcome State Fault Refusal :=
  match decode v with
  | .ok i => exec i (s.setLastcmd v)
  | .error _ => execIllegal (s.setLastcmd v)

/-- Runs an access that is 32 bits wide and aligned; any other is refused (20_memory R104, R105). -/
def withAligned (a : Addr) (size : Nat) (k : Host.Outcome State Fault Refusal) :
    Host.Outcome State Fault Refusal :=
  if size ≠ 4 then .refused (.accessWidth size)
  else if a.toNat % 4 ≠ 0 then .refused (.misaligned a)
  else k

/-- What the bus returns to the host in this cycle. -/
def State.setReadData (d : Option Word) (s : State) : State := { s with readData := d }

/-- The bus phase (10_state R31 phase 3, 44_general R412, R413): at most one access of the host. A cycle without a
read returns nothing. -/
def busPhase (access : Option BusAccess) (s : State) : Host.Outcome State Fault Refusal :=
  match access with
  | none => .next (s.setReadData none)
  | some (.read a size) => withAligned a size (.next (s.setReadData (some (s.readWord a))))
  | some (.write a size v) =>
    withAligned a size
      (if a.toNat = Reg.addr .cmd then dispatchCommand v (s.setReadData none)
       else .next ((s.setReadData none).writeWord a v))

/-- RX_READY is set while RXQ holds at least 47 bytes (60_exceptions R445). -/
def sampleRxReady (s : State) : State := if PKT_LEN ≤ s.pvu.rxq.length then s.pend .rxReady else s

/-- The output lines take the values of the state (10_state R80). -/
def latchLines (s : State) : State := { s with lines := s.linesOf }

/-- The level phase (10_state R31 phase 5): RX_READY is sampled, then the output lines take their values. -/
def levelPhase (s : State) : State := latchLines (sampleRxReady s)

/-- The SDU tick and then the SSM tick, which sees the TURN_COMPLETE of this cycle (10_state R31 phases 1, 2). -/
def ticks (s : State) : State := ssmTick (sduTick s).2 (sduTick s).1

/-- The phases after the bus phase (10_state R31 phases 4 and 5). -/
def afterBus (rx : Option Byte) (s : State) : State := levelPhase (rxPhase rx s)

/-- A cycle with RST asserted (70_reset_and_hazards R490): no phase runs, every element takes its reset value, a
byte is dropped, an access has no effect and a read returns 0. The parameters are not state and stay. -/
def resetCycle (c : CycleInput) (s : State) : State :=
  { State.resetWith s.params s.inputs with
    readData :=
      match c.access with
      | some (.read _ _) => some 0
      | _ => none }

/-- One clock cycle with the given behaviour of the environment (10_state R31). -/
def cycle (c : CycleInput) (s : State) : Host.Outcome State Fault Refusal :=
  if c.rst then .next (resetCycle c s)
  else
    match busPhase c.access (ticks s) with
    | .next s' => .next (afterBus c.rx s')
    | .fault r => .fault r
    | .refused r => .refused r

/-- One clock cycle, taking the environment's behaviour from `inputs`; after the list's end the environment does
nothing (notes/assumptions/1.md). -/
def stepCycle (s : State) : Host.Outcome State Fault Refusal :=
  match s.inputs with
  | [] => cycle CycleInput.idle s
  | c :: rest => cycle c { s with inputs := rest }

/-- The next cycle's input changed so that the host writes the word to CMD in it, with RST deasserted; the byte the
receiver delivers and all later cycles stay (notes/assumptions/19.md). -/
def withCommandNext (v : Word) (inputs : List CycleInput) : List CycleInput :=
  { rst := false
    access := some (.write (BitVec.ofNat 12 (Reg.addr .cmd)) 4 v)
    rx := (inputs.headD CycleInput.idle).rx } :: inputs.tail

end Sys2Proof.Machine
end

