-- ==== Sys2Proof/Machine/Step.lean ====
section
/-! DEFINITION. The step: one clock cycle (10_state R31). The work is in Machine/Bus.lean. -/

namespace Sys2Proof.Machine

/-- One clock cycle. -/
def step (s : State) : Host.Outcome State Fault Refusal := stepCycle s

/-- The state with a command word placed where the next step takes it: the host writes it to CMD in the next
cycle. Bits of `w` from `nbits` on are zero. -/
def State.withFetchWord (s : State) (nbits w : Nat) : State :=
  { s with inputs := withCommandNext (BitVec.ofNat 32 (w % 2 ^ nbits)) s.inputs }

end Sys2Proof.Machine
end

