-- ==== Sys2Proof/Machine/HostNotation.lean ====
section
/-! DEFINITION. The host notation (30_encoding R159, R160): the exact bus accesses of every pseudo-instruction, and
how a host program in that notation drives the block, cycle by cycle (95_test_vectors section 0, 70 R506). -/

namespace Sys2Proof.Machine

/-- The register at the LO address of a 64-bit register (10_state R36). -/
def Reg64.lo : Reg64 → Reg
  | .corr => .corrLo
  | .pos => .posLo
  | .angle => .angleLo
  | .stepCnt => .stepCntLo
  | .turnN => .turnNLo
  | .sweepAcc => .sweepAccLo
  | .rho => .rhoLo
  | .phi => .phiLo
  | .theta => .thetaLo
  | .offset => .offsetLo
  | .x => .xLo
  | .y => .yLo
  | .z => .zLo

/-- The register at the HI address of a 64-bit register (10_state R36). -/
def Reg64.hi : Reg64 → Reg
  | .corr => .corrHi
  | .pos => .posHi
  | .angle => .angleHi
  | .stepCnt => .stepCntHi
  | .turnN => .turnNHi
  | .sweepAcc => .sweepAccHi
  | .rho => .rhoHi
  | .phi => .phiHi
  | .theta => .thetaHi
  | .offset => .offsetHi
  | .x => .xHi
  | .y => .yHi
  | .z => .zHi

/-- `wr REG, v` (30_encoding R159). -/
def wrAccess (r : Reg) (v : Word) : BusAccess := .write (BitVec.ofNat 12 (Reg.addr r)) 4 v

/-- `rd REG` (30_encoding R159). -/
def rdAccess (r : Reg) : BusAccess := .read (BitVec.ofNat 12 (Reg.addr r)) 4

/-- The word written to ARG1 for a direction (30_encoding R160). -/
def dirWord : Dir → Word
  | .cw => 0
  | .ccw => 1

/-- PKTBUF_Wk's word of `pkt_load`, with b47 = 0 (30_encoding R160). -/
def packetWord (bytes : List Byte) (k : Nat) : Word :=
  let b := fun j => if j < PKT_LEN then bytes.getD j 0 else (0 : Byte)
  b (4 * k + 3) ++ b (4 * k + 2) ++ b (4 * k + 1) ++ b (4 * k)

/-- The expansion of a pseudo-instruction into bus accesses, in their order (30_encoding R160). -/
def Pseudo.accesses : Pseudo → List BusAccess
  | .nop => [wrAccess .cmd (encode .nop)]
  | .pktRead => [wrAccess .cmd (encode .pktRead)]
  | .pktCheck => [wrAccess .cmd (encode .pktCheck)]
  | .setRes p => [wrAccess .arg0 ((Preset.code p).setWidth 32), wrAccess .cmd (encode .setRes)]
  | .setSpeed m => [wrAccess .arg0 m, wrAccess .cmd (encode .setSpeed)]
  | .setCorr f => [wrAccess .arg0 (lo32 f), wrAccess .arg1 (hi32 f), wrAccess .cmd (encode .setCorr)]
  | .turn d n => [wrAccess .arg0 n, wrAccess .arg1 (dirWord d), wrAccess .cmd (encode .turn)]
  | .setRings n => [wrAccess .arg0 n, wrAccess .cmd (encode .setRings)]
  | .setPrerot n => [wrAccess .arg0 n, wrAccess .cmd (encode .setPrerot)]
  | .setRto n => [wrAccess .arg0 n, wrAccess .cmd (encode .setRto)]
  | .sweepStart => [wrAccess .cmd (encode .sweepStart)]
  | .ringDone => [wrAccess .cmd (encode .ringDone)]
  | .sweepCancel => [wrAccess .cmd (encode .sweepCancel)]
  | .ctuXform => [wrAccess .cmd (encode .ctuXform)]
  | .wr64 r f => [wrAccess (Reg64.lo r) (lo32 f), wrAccess (Reg64.hi r) (hi32 f)]
  | .rd64 r => [rdAccess (Reg64.lo r), rdAccess (Reg64.hi r)]
  | .pktLoad bytes => (List.finRange 12).map (fun k => wrAccess (.pktbufW k) (packetWord bytes k.val))

/-- The block under a host program: the state and the bytes of the running `rx` streams still to be delivered. -/
structure HostRun where
  state : State
  stream : List Byte
deriving DecidableEq, Repr

/-- One cycle in which the host makes the given access and the next stream byte, if any, arrives. -/
def hostCycle (a : Option BusAccess) (r : HostRun) : Host.Outcome HostRun Fault Refusal :=
  match step { r.state with inputs := [⟨false, a, r.stream.head?⟩] } with
  | .next s => .next ⟨s, r.stream.tail⟩
  | .fault f => .fault f
  | .refused f => .refused f

/-- Accesses in consecutive cycles. -/
def hostAccesses : List BusAccess → HostRun → Host.Outcome HostRun Fault Refusal
  | [], r => .next r
  | a :: as, r =>
    match hostCycle (some a) r with
    | .next r' => hostAccesses as r'
    | .fault f => .fault f
    | .refused f => .refused f

/-- `wait n`: n cycles with no access. -/
def hostWait : Nat → HostRun → Host.Outcome HostRun Fault Refusal
  | 0, r => .next r
  | n + 1, r =>
    match hostCycle none r with
    | .next r' => hostWait n r'
    | .fault f => .fault f
    | .refused f => .refused f

/-- `poll REG, mask, val`: reads until (value & mask) = val, at most `fuel` reads (notes/assumptions/27.md). -/
def hostPoll : Nat → Reg → Word → Word → HostRun → Host.Outcome HostRun Fault Refusal
  | 0, _, _, _, r => .next r
  | fuel + 1, reg, mask, val, r =>
    match hostCycle (some (rdAccess reg)) r with
    | .next r' =>
      if r'.state.readData.map (fun v => v &&& mask) = some val then .next r' else hostPoll fuel reg mask val r'
    | .fault f => .fault f
    | .refused f => .refused f

/-- One statement of the host notation (30_encoding R159). `rx` takes no cycle: it queues its bytes, the first of
which arrives in the next cycle. -/
def hostStmt (fuel : Nat) : HostStmt → HostRun → Host.Outcome HostRun Fault Refusal
  | .wr reg v, r => hostAccesses [wrAccess reg v] r
  | .rd reg, r => hostAccesses [rdAccess reg] r
  | .poll reg mask val, r => hostPoll fuel reg mask val r
  | .wait n, r => hostWait n r
  | .rx bytes, r => .next { r with stream := r.stream ++ bytes }
  | .pseudo p, r => hostAccesses (Pseudo.accesses p) r

/-- A host program: its statements one after the other, each poll with the given fuel. -/
def hostProgram (fuel : Nat) : List HostStmt → HostRun → Host.Outcome HostRun Fault Refusal
  | [], r => .next r
  | st :: rest, r =>
    match hostStmt fuel st r with
    | .next r' => hostProgram fuel rest r'
    | .fault f => .fault f
    | .refused f => .refused f

end Sys2Proof.Machine
end

