-- ==== Sys2Proof/Safety.lean ====
section
/-! DEFINITION. What counts as a good state and a safe run, in the terms the statements use: the invariants of
10_state, 42_sweep_sequencer R333 and 41_stepper_drive, quiescence (70_reset_and_hazards R506), and the runs that
the derived properties speak of. -/

namespace Sys2Proof.Machine

/-- The block is quiescent: SDU_STATE and SEQ_STATE are IDLE (70_reset_and_hazards R506). -/
def State.quiescent (s : State) : Bool := s.sdu.state == .idle && s.ssm.state == .idle

/-- The end state of a host program (70_reset_and_hazards R506), run from the state after its last access: the state
at the end of the first further cycle that leaves the block quiescent and in which no RX byte arrives; none if no
such cycle comes within the given number of cycles. -/
def hostEndState : Nat → HostRun → Option State
  | 0, _ => none
  | n + 1, r =>
    match hostCycle none r with
    | .next r' => if r.stream.isEmpty && r'.state.quiescent then some r'.state else hostEndState n r'
    | _ => none

/-- The environment of the next cycle leaves RST deasserted. -/
def State.noResetNext (s : State) : Bool := !(s.inputs.headD CycleInput.idle).rst

/-- The access of the next cycle, if any, is an aligned 32-bit one (20_memory R104, R105). -/
def State.accessWellFormedNext (s : State) : Bool := (s.inputs.headD CycleInput.idle).wellFormed

/-- The command of the next cycle's CMD write, if the next cycle holds one with a legal word. -/
def State.commandNext (s : State) : Option Instr :=
  match (s.inputs.headD CycleInput.idle).access with
  | some (.write a 4 v) =>
    if a.toNat = Reg.addr .cmd then
      match decode v with
      | .ok i => some i
      | .error _ => none
    else none
  | _ => none

/-- The configuration and motion commands of 30_encoding R154, which check BUSY_NOW. -/
def Instr.checksBusy : Instr → Bool
  | .setRes | .setSpeed | .setCorr | .turn | .setRings | .setPrerot | .setRto | .sweepStart => true
  | .nop | .pktRead | .pktCheck | .ringDone | .sweepCancel | .ctuXform => false

/-- The codes that are rejections (30_encoding R155, 60_exceptions R443); the others are completions. -/
def ResultCode.isRejection : ResultCode → Bool
  | .ok | .pktLength | .pktSentinel | .pktCrc => false
  | .invalidResolution | .invalidSpeed | .stepsTooSmall | .resolutionTooFine | .busy | .illegalCommand
  | .invalidRings | .invalidCorr | .ctuNonfinite | .notInRingWait | .noSweep => true

/-- A sweep is active: SEQ_STATE is not IDLE (STATUS.SWEEP_ACTIVE, 10_state R42). -/
def State.sweepActive (s : State) : Bool := s.ssm.state != .idle

/-- The packet validator's invariant. -/
structure PvuInv (s : State) : Prop where
  /-- PKTBUF is in canonical form. -/
  bufWf : Memory.wf s.pvu.pktbuf = true
  /-- RXQ holds at most P_RXQ_DEPTH bytes (10_state R75). -/
  rxqBound : s.pvu.rxq.length ≤ s.params.rxqDepth
  /-- RESYNC_CNT cannot exceed P_RXQ_DEPTH (10_state R32). -/
  resyncBound : s.pvu.resyncCnt.toNat ≤ s.params.rxqDepth
  /-- PKT_VALID is 1 only while PKTBUF holds a packet that passed the last check (10_state R48). -/
  validMeansOk : s.pvu.pktValid = true →
    s.pvu.pktLast = .ok ∧ validate s.params.crcTable s.pvu.pktbuf PKT_LEN = .ok

/-- The stepper drive's invariant. -/
structure SduInv (s : State) : Prop where
  /-- SPEED is in [1, 4500] (10_state R57). -/
  speedRange : 1 ≤ s.sdu.speed.toNat ∧ s.sdu.speed.toNat ≤ MAX_SPEED
  /-- CORR is finite and positive (10_state R58). -/
  corrRange : F64.finite s.sdu.corr = true ∧ 0 < F64.scaled s.sdu.corr
  /-- Pulses done and pulses to do are the pulses requested (10_state R32, R61, R63, R77). -/
  pulses : s.sdu.stepCnt.toNat + s.sdu.rem.toNat = s.sdu.turnN.toNat
  /-- Pulses are left exactly while a turn runs. -/
  remIffBusy : s.sdu.rem ≠ 0 ↔ s.sdu.state ≠ .idle
  /-- A running turn has a half-period of at least one cycle (41_stepper_drive R265). -/
  halfPos : s.sdu.state ≠ .idle → 1 ≤ s.sdu.half.toNat
  /-- In HIGH and LOW, PH_CNT is in [1, HALF]; outside them it is 0. -/
  phase : if s.sdu.state = .high ∨ s.sdu.state = .low
    then 1 ≤ s.sdu.phCnt.toNat ∧ s.sdu.phCnt.toNat ≤ s.sdu.half.toNat
    else s.sdu.phCnt = 0

/-- The sweep sequencer's invariant: 42_sweep_sequencer R333 items 1 to 3 and the second half of item 4, and what
each state's turn is. -/
structure SsmInv (s : State) : Prop where
  /-- RINGS is at least 1 (10_state R64). -/
  ringsPos : 1 ≤ s.ssm.rings.toNat
  /-- In PREROT, ADVANCE and RETURN a turn of the sequencer runs (R333 item 1). -/
  turning : s.ssm.state = .prerot ∨ s.ssm.state = .advance ∨ s.ssm.state = .returning →
    s.sdu.state ≠ .idle ∧ s.sdu.turnOrigin = .seq
  /-- In RING_WAIT the SDU is idle (R333 item 2). -/
  waiting : s.ssm.state = .ringWait → s.sdu.state = .idle
  /-- In IDLE a running turn is the host's (R333 item 2). -/
  idle : s.ssm.state = .idle → s.sdu.state = .idle ∨ s.sdu.turnOrigin = .host
  /-- CANCEL_PEND is 1 only in PREROT and ADVANCE (R333 item 3). -/
  cancel : s.ssm.cancelPend = true → s.ssm.state = .prerot ∨ s.ssm.state = .advance
  /-- While a sweep is active, SPRING is in [1, 100·MD] (R333 item 4). -/
  springRange : s.ssm.state ≠ .idle →
    1 ≤ s.ssm.spring.toNat ∧ s.ssm.spring.toNat ≤ 100 * Preset.md s.sdu.mscode
  /-- The pre-rotation turns PREROT steps CW (R324). -/
  prerotTurn : s.ssm.state = .prerot →
    s.sdu.turnDir = .cw ∧ s.sdu.turnN = s.ssm.prerot.setWidth 64 ∧ s.ssm.sweepAcc = 0
  /-- An advance turns SPRING steps CW (R325). -/
  advanceTurn : s.ssm.state = .advance → s.sdu.turnDir = .cw ∧ s.sdu.turnN = s.ssm.spring.setWidth 64
  /-- The reset rotation turns SWEEP_ACC steps CCW (R328). -/
  returnTurn : s.ssm.state = .returning → s.sdu.turnDir = .ccw ∧ s.sdu.turnN = s.ssm.sweepAcc
  /-- SEQ_END is NONE until the sweep ends, and tells how from the reset rotation on (R324, R328). -/
  ended : (s.ssm.state = .prerot ∨ s.ssm.state = .ringWait ∨ s.ssm.state = .advance → s.ssm.seqEnd = .none) ∧
    (s.ssm.state = .returning → s.ssm.seqEnd ≠ .none)
  /-- A running timeout has not run out (R332). -/
  timer : s.ssm.state = .ringWait → s.ssm.rto ≠ 0 → s.ssm.rtoCnt.toNat < s.ssm.rto.toNat

/-- The invariant of the level phase: the lines are the functions of the state that 10_state R80 gives, and
RX_READY is pending while RXQ holds a packet's worth of bytes (60_exceptions R445). -/
structure LevelInv (s : State) : Prop where
  lines : s.lines = s.linesOf
  rxReady : PKT_LEN ≤ s.pvu.rxq.length → s.host.irqPend.getLsbD 4 = true

/-- The machine's invariant at the end of a cycle. -/
structure Inv (s : State) : Prop where
  pvu : PvuInv s
  sdu : SduInv s
  ssm : SsmInv s
  level : LevelInv s

/-- POS is the position `pos0` before the sweep plus the accumulated steps, modulo 2^64, while a sweep is active,
and `pos0` otherwise (42_sweep_sequencer R333 item 5). -/
def posAccounted (pos0 : DWord) (s : State) : Prop :=
  if s.sweepActive then
    s.sdu.pos = pos0 + s.ssm.sweepAcc * BitVec.ofNat 64 (Preset.unitsPerStep s.sdu.mscode)
  else s.sdu.pos = pos0

/-- SWEEP_ACC after PREROT steps and `a` completed advances, modulo 2^64 (42_sweep_sequencer R333 item 6). -/
def sweepSteps (a : Nat) (s : State) : DWord :=
  s.ssm.prerot.setWidth 64 + s.ssm.spring.setWidth 64 * BitVec.ofNat 64 a

/-- SWEEP_ACC against PREROT, SPRING and RING_IDX (42_sweep_sequencer R333 item 6): nothing during the pre-rotation,
then PREROT + SPRING·A modulo 2^64 for the number A of completed advances. RING_IDX, which wraps modulo 2^32
(10_state R32), is A, except during ADVANCE, where it is A + 1. -/
def stepsAccounted (s : State) : Prop :=
  match s.ssm.state with
  | .idle => True
  | .prerot => s.ssm.sweepAcc = 0 ∧ s.ssm.ringIdx = 0
  | .ringWait => ∃ a : Nat, s.ssm.sweepAcc = sweepSteps a s ∧ s.ssm.ringIdx = BitVec.ofNat 32 a
  | .advance => ∃ a : Nat, s.ssm.sweepAcc = sweepSteps a s ∧ s.ssm.ringIdx = BitVec.ofNat 32 (a + 1)
  | .returning => ∃ a : Nat, s.ssm.sweepAcc = sweepSteps a s ∧ s.ssm.ringIdx = BitVec.ofNat 32 a

/-- n PKT_READ commands one after the other: the results they report, and the state after them. -/
def pktReads : Nat → State → List ResultCode × State
  | 0, s => ([], s)
  | n + 1, s =>
    match exec .pktRead s with
    | .next t => (t.host.result :: (pktReads n t).1, (pktReads n t).2)
    | _ => ([], s)

/-- A byte string that PKT_READ accepts: 47 bytes, the sentinel first, its CRC last (40_packet_validator R204). -/
def goodPacket (table : List Byte) (p : List Byte) : Prop :=
  p.length = PKT_LEN ∧ p.head? = some SENTINEL ∧ p.getLast? = some (crc8 table (p.take CRC_POS))

/-- k SDU ticks one after the other. -/
def sduTicks : Nat → State → State
  | 0, s => s
  | k + 1, s => sduTicks k (sduTick s).1

/-! ## What the statements speak of -/

/-- What the environment does in the next cycle. -/
def State.nextInput (s : State) : CycleInput := s.inputs.headD CycleInput.idle

/-- The state that the bus phase of the next cycle sees: after the SDU tick and the SSM tick (10_state R31). -/
def State.atBusPhase (s : State) : State := ticks { s with inputs := s.inputs.tail }

/-- The environment after which the next cycle is `c`. -/
def State.withNextInput (c : CycleInput) (s : State) : State := { s with inputs := c :: s.inputs.tail }

/-- The addresses that 10_state R36 maps, as ranges of aligned addresses. -/
def mappedAddress (a : Nat) : Bool :=
  decide (a ≤ 0x024) || (decide (0x100 ≤ a) && decide (a ≤ 0x128)) || (decide (0x140 ≤ a) && decide (a ≤ 0x16C)) ||
    (decide (0x180 ≤ a) && decide (a ≤ 0x1AC)) || (decide (0x200 ≤ a) && decide (a ≤ 0x230)) ||
    (decide (0x300 ≤ a) && decide (a ≤ 0x31C)) || (decide (0x400 ≤ a) && decide (a ≤ 0x434))

/-- The registers the host may write (10_state R36, access RW, WO or W1C). -/
def Reg.hostWrites : Reg → Bool
  | .cmd | .arg0 | .arg1 | .err | .irqEn | .irqPend | .swphase | .pktbufW _ | .rhoLo | .rhoHi | .phiLo | .phiHi
  | .thetaLo | .thetaHi | .offsetLo | .offsetHi => true
  | .id | .result | .status | .rxCount | .pktStatus | .resyncCnt | .pktOkCnt | .pktErrCnt | .crcCalc | .fHdr
  | .fSpeed | .fStart | .fEnd | .fTime | .sample _ | .res | .speed | .corrLo | .corrHi | .posLo | .posHi
  | .angleLo | .angleHi | .stepCntLo | .stepCntHi | .half | .turnNLo | .turnNHi | .rings | .prerot | .rto
  | .spring | .ringIdx | .failRing | .sweepAccLo | .sweepAccHi | .xLo | .xHi | .yLo | .yHi | .zLo | .zHi => false

/-- The unit of a command, as the high nibble of its OPC numbers it: 0 global, 1 PVU, 2 SDU, 3 SSM, 4 CTU
(30_encoding R156). -/
def Instr.unitNibble : Instr → Nat
  | .nop => 0
  | .pktRead => 1
  | .pktCheck => 1
  | .setRes => 2
  | .setSpeed => 2
  | .setCorr => 2
  | .turn => 2
  | .setRings => 3
  | .setPrerot => 3
  | .setRto => 3
  | .sweepStart => 3
  | .ringDone => 3
  | .sweepCancel => 3
  | .ctuXform => 4

/-- One step of the bitwise CRC-8 with polynomial 0x4D (40_packet_validator R203). -/
def crcShift (c : Byte) : Byte := if c.getLsbD 7 then (c <<< 1) ^^^ 0x4D else c <<< 1

/-- Entry i of the generated table (40_packet_validator R203). -/
def crcEntry (i : Nat) : Byte := (List.range 8).foldl (fun c _ => crcShift c) (BitVec.ofNat 8 i)

end Sys2Proof.Machine
end

