-- ==== Sys2Proof/Certificates/Slice0/Obligations.lean ====
section
/-! DEFINITION. The statements for the provers. Each docstring names the rule of spec/ that the statement
formalises; what rests on a choice of the model names the assumption log's entry. A hypothesis on the environment
of the next cycle (RST, the access, the received byte) is stated through `State.nextInput`; the state that the bus
phase sees is `State.atBusPhase`. The field `readData`, the value the bus returned in the cycle, is the model's own
(DESIGN CHOICE, notes/assumptions/14.md); a statement that names it says so. -/

section

open Sys2Proof Sys2Proof.Machine

/-! ## Command words and their dispatch -/

/-- 30_encoding R151, R156, R157: a word decodes to a command exactly when it is the command's encoding. Every
command is well formed, so this is the round trip in both directions, over all 2^32 words. -/
def Obligations.DecodeAndEncodeAgree : Prop :=
  ∀ i : Instr, i.wellFormed = true ∧ ∀ v : Word, decode v = .ok i ↔ v = encode i

/-- 30_encoding R156 and R160: the 14 words of the opcode map, written out, decode to their commands. -/
def Obligations.OpcodeMapWordsDecode : Prop :=
  decode 0x00000000#32 = .ok .nop ∧ decode 0x00000010#32 = .ok .pktRead ∧ decode 0x00000011#32 = .ok .pktCheck ∧
  decode 0x00000020#32 = .ok .setRes ∧ decode 0x00000021#32 = .ok .setSpeed ∧
  decode 0x00000022#32 = .ok .setCorr ∧ decode 0x00000023#32 = .ok .turn ∧ decode 0x00000030#32 = .ok .setRings ∧
  decode 0x00000031#32 = .ok .setPrerot ∧ decode 0x00000032#32 = .ok .setRto ∧
  decode 0x00000033#32 = .ok .sweepStart ∧ decode 0x00000034#32 = .ok .ringDone ∧
  decode 0x00000035#32 = .ok .sweepCancel ∧ decode 0x00000040#32 = .ok .ctuXform

/-- 44_general R411, with the legal codes of 30_encoding R157 written out: an illegal word changes LASTCMD,
RESULT, ERR[0] and IRQ_PEND[6] and nothing else. -/
def Obligations.IllegalWordIsRejectedWithoutEffect : Prop :=
  ∀ (v : Word) (s : State),
    (v.toNat / 256 ≠ 0 ∨
      v.toNat % 256 ∉ ([0x00, 0x10, 0x11, 0x20, 0x21, 0x22, 0x23, 0x30, 0x31, 0x32, 0x33, 0x34, 0x35, 0x40] :
        List Nat)) →
    dispatchCommand v s =
      .next { s with
        host := { s.host with
          lastcmd := v.setWidth 8
          result := .illegalCommand
          err := s.host.err ||| 0b001
          irqPend := s.host.irqPend ||| 0b1000000 } }

/-! ## The cycle -/

/-- 10_state R31 and 30_encoding R152: when the host writes a word to CMD that decodes to a command, the step runs
the command on the state after the SDU tick and the SSM tick with LASTCMD set (and no read data), and then the
RX phase and the level phase. That the cycle leaves no read data is the model's choice
(notes/assumptions/14.md). -/
def Obligations.StepRunsDecodedCommand : Prop :=
  ∀ (s : State) (v : Word) (i : Instr) (t : State),
    s.nextInput.rst = false → s.nextInput.access = some (.write 0x004#12 4 v) →
    decode v = .ok i → i.wellFormed = true →
    exec i { s.atBusPhase with
      host := { s.atBusPhase.host with lastcmd := v.setWidth 8 }, readData := none } = .next t →
    step s = .next (levelPhase (rxPhase s.nextInput.rx t))

/-- 10_state R31: the phases of a cycle without reset in their order, and what keeps a cycle from completing:
60_exceptions R457 with 20_memory R104 and R105 admits every access but one of another width and a misaligned
one, which a model refuses. Which name an access that is both gets is the model's choice
(notes/assumptions/16.md), and that an access in a reset cycle is not refused is DEDUCED
(notes/assumptions/15.md). -/
def Obligations.CycleRunsItsPhasesOrRefusesTheAccess : Prop :=
  (∀ (s s1 s2 b : State) (done : Bool),
    s.nextInput.rst = false →
    sduTick { s with inputs := s.inputs.tail } = (s1, done) →
    ssmTick done s1 = s2 →
    busPhase s.nextInput.access s2 = .next b →
    step s = .next (levelPhase (rxPhase s.nextInput.rx b))) ∧
  (∀ s : State, (∃ t, step s = .next t) ↔
    (s.nextInput.rst = true ∨ s.nextInput.access = none ∨
      (∃ a, s.nextInput.access = some (.read a 4) ∧ a.toNat % 4 = 0) ∨
      (∃ a v, s.nextInput.access = some (.write a 4 v) ∧ a.toNat % 4 = 0))) ∧
  (∀ (s : State) (a : Addr) (size : Nat) (v : Word),
    s.nextInput.rst = false →
    (s.nextInput.access = some (.read a size) ∨ s.nextInput.access = some (.write a size v)) →
    (size ≠ 4 → step s = .refused (.accessWidth size)) ∧
    (size = 4 → a.toNat % 4 ≠ 0 → step s = .refused (.misaligned a)))

/-- 70_reset_and_hazards R490: in a cycle with RST asserted every element takes its reset value, a byte is
dropped, an access has no effect and a read returns 0. That the returned 0 stands in `readData` is the model's
choice (notes/assumptions/14.md); that this covers an access of a width or alignment that is refused in other
cycles is DEDUCED (notes/assumptions/15.md). -/
def Obligations.ResetCycleResetsEverything : Prop :=
  ∀ s : State, s.nextInput.rst = true →
    ∃ t, step s = .next t ∧
      t.host = State.reset.host ∧ t.pvu = State.reset.pvu ∧ t.sdu = State.reset.sdu ∧ t.ssm = State.reset.ssm ∧
      t.ctu = State.reset.ctu ∧
      t.lines.step = false ∧ t.lines.dir = false ∧ t.lines.irq = false ∧ t.lines.ms = s.params.msTable.full ∧
      t.params = s.params ∧ t.inputs = s.inputs.tail ∧
      (∀ a size, s.nextInput.access = some (.read a size) → t.readData = some 0)

/-- 70_reset_and_hazards R491 (its computed registers under the default tables, which notes/assumptions/4.md and
5.md mark PRESUMED): the reset values. -/
def Obligations.ResetLeavesTheListedValues : Prop :=
  State.reset.regValue .id = 0x41454753 ∧
  State.reset.host.lastcmd = 0 ∧ State.reset.host.arg0 = 0 ∧ State.reset.host.arg1 = 0 ∧
  State.reset.host.result = .ok ∧ State.reset.host.err = 0 ∧ State.reset.host.irqEn = 0 ∧
  State.reset.host.irqPend = 0 ∧ State.reset.host.swphase = 0 ∧
  State.reset.pvu.rxq = [] ∧ (∀ j, Memory.read State.reset.pvu.pktbuf j = 0) ∧
  State.reset.pvu.pktValid = false ∧ State.reset.pvu.pktLast = .ok ∧ State.reset.pvu.resyncCnt = 0 ∧
  State.reset.pvu.pktOkCnt = 0 ∧ State.reset.pvu.pktErrCnt = 0 ∧
  State.reset.sdu.mscode = .full ∧ State.reset.sdu.speed = 1000 ∧ State.reset.sdu.corr = 0x3FF0000000000000 ∧
  State.reset.sdu.pos = 0 ∧ State.reset.sdu.stepCnt = 0 ∧ State.reset.sdu.turnN = 0 ∧ State.reset.sdu.half = 0 ∧
  State.reset.sdu.state = .idle ∧ State.reset.sdu.phCnt = 0 ∧ State.reset.sdu.rem = 0 ∧
  State.reset.sdu.turnDir = .cw ∧ State.reset.sdu.turnOrigin = .host ∧
  State.reset.ssm.rings = 100 ∧ State.reset.ssm.prerot = 0 ∧ State.reset.ssm.rto = 0 ∧
  State.reset.ssm.spring = 0 ∧ State.reset.ssm.ringIdx = 0 ∧ State.reset.ssm.failRing = 0 ∧
  State.reset.ssm.sweepAcc = 0 ∧ State.reset.ssm.state = .idle ∧ State.reset.ssm.cancelPend = false ∧
  State.reset.ssm.rtoCnt = 0 ∧ State.reset.ssm.seqEnd = .none ∧
  State.reset.ctu = ⟨0, 0, 0, 0, 0, 0, 0⟩ ∧ State.reset.lines = ⟨false, false, 0, false⟩ ∧
  State.reset.regValue .status = 0 ∧ State.reset.regValue .res = 0x00000100 ∧
  State.reset.regValue .crcCalc = 0 ∧ State.reset.regValue .rxCount = 0 ∧
  State.reset.regValue .angleLo = 0 ∧ State.reset.regValue .angleHi = 0 ∧
  State.reset.regValue .fHdr = 0 ∧ State.reset.regValue .fSpeed = 0 ∧ State.reset.regValue .fStart = 0 ∧
  State.reset.regValue .fEnd = 0 ∧ State.reset.regValue .fTime = 0 ∧
  (∀ k, State.reset.regValue (.sample k) = 0) ∧ (∀ k, State.reset.regValue (.pktbufW k) = 0)

/-! ## Register accesses -/

/-- 20_memory R107 and 44_general R412: a read returns the register's value after the ticks of its cycle, or 0 at
an unmapped address, and leaves everything else as a cycle without an access would. That the returned value stands
in `readData` is the model's choice (notes/assumptions/14.md). -/
def Obligations.ReadReturnsValueAndChangesNothing : Prop :=
  ∀ (s : State) (a : Addr) (rx : Option Byte), a.toNat % 4 = 0 →
    ∃ u, step (s.withNextInput ⟨false, none, rx⟩) = .next u ∧
      (∀ r, Reg.addr r = a.toNat →
        step (s.withNextInput ⟨false, some (.read a 4), rx⟩) =
          .next { u with readData := some (s.atBusPhase.regValue r) }) ∧
      ((∀ r, Reg.addr r ≠ a.toNat) →
        step (s.withNextInput ⟨false, some (.read a 4), rx⟩) = .next { u with readData := some 0 })

/-- 10_state R36: the address of every register of the table, and that the map's addresses are distinct, aligned,
inside the window, and just those of the table. -/
def Obligations.RegisterMapCoversTheTable : Prop :=
  (∀ r r' : Reg, Reg.addr r = Reg.addr r' → r = r') ∧
  (∀ a : Nat, a < 4096 → a % 4 = 0 → ((∃ r, Reg.addr r = a) ↔ mappedAddress a = true)) ∧
  (∀ r : Reg, Reg.addr r < 4096 ∧ Reg.addr r % 4 = 0) ∧
  Reg.addr .id = 0x000 ∧ Reg.addr .cmd = 0x004 ∧ Reg.addr .arg0 = 0x008 ∧ Reg.addr .arg1 = 0x00C ∧
  Reg.addr .result = 0x010 ∧ Reg.addr .status = 0x014 ∧ Reg.addr .err = 0x018 ∧ Reg.addr .irqEn = 0x01C ∧
  Reg.addr .irqPend = 0x020 ∧ Reg.addr .swphase = 0x024 ∧ Reg.addr .rxCount = 0x100 ∧ Reg.addr .pktStatus = 0x104 ∧
  Reg.addr .resyncCnt = 0x108 ∧ Reg.addr .pktOkCnt = 0x10C ∧ Reg.addr .pktErrCnt = 0x110 ∧
  Reg.addr .crcCalc = 0x114 ∧ Reg.addr .fHdr = 0x118 ∧ Reg.addr .fSpeed = 0x11C ∧ Reg.addr .fStart = 0x120 ∧
  Reg.addr .fEnd = 0x124 ∧ Reg.addr .fTime = 0x128 ∧
  (∀ k, Reg.addr (.pktbufW k) = 0x140 + 4 * k.val) ∧ (∀ k, Reg.addr (.sample k) = 0x180 + 4 * k.val) ∧
  Reg.addr .res = 0x200 ∧ Reg.addr .speed = 0x204 ∧ Reg.addr .corrLo = 0x208 ∧ Reg.addr .corrHi = 0x20C ∧
  Reg.addr .posLo = 0x210 ∧ Reg.addr .posHi = 0x214 ∧ Reg.addr .angleLo = 0x218 ∧ Reg.addr .angleHi = 0x21C ∧
  Reg.addr .stepCntLo = 0x220 ∧ Reg.addr .stepCntHi = 0x224 ∧ Reg.addr .half = 0x228 ∧ Reg.addr .turnNLo = 0x22C ∧
  Reg.addr .turnNHi = 0x230 ∧ Reg.addr .rings = 0x300 ∧ Reg.addr .prerot = 0x304 ∧ Reg.addr .rto = 0x308 ∧
  Reg.addr .spring = 0x30C ∧ Reg.addr .ringIdx = 0x310 ∧ Reg.addr .failRing = 0x314 ∧ Reg.addr .sweepAccLo = 0x318 ∧
  Reg.addr .sweepAccHi = 0x31C ∧ Reg.addr .rhoLo = 0x400 ∧ Reg.addr .rhoHi = 0x404 ∧ Reg.addr .phiLo = 0x408 ∧
  Reg.addr .phiHi = 0x40C ∧ Reg.addr .thetaLo = 0x410 ∧ Reg.addr .thetaHi = 0x414 ∧ Reg.addr .offsetLo = 0x418 ∧
  Reg.addr .offsetHi = 0x41C ∧ Reg.addr .xLo = 0x420 ∧ Reg.addr .xHi = 0x424 ∧ Reg.addr .yLo = 0x428 ∧
  Reg.addr .yHi = 0x42C ∧ Reg.addr .zLo = 0x430 ∧ Reg.addr .zHi = 0x434

/-- 20_memory R106: an unmapped address reads 0 and ignores a write. That the returned value stands in `readData`
is the model's choice (notes/assumptions/14.md). -/
def Obligations.UnmappedReadsZeroAndIgnoresWrites : Prop :=
  ∀ (s : State) (a : Addr) (v : Word), a.toNat % 4 = 0 → mappedAddress a.toNat = false →
    busPhase (some (.read a 4)) s = .next { s with readData := some 0 } ∧
    busPhase (some (.write a 4 v)) s = .next { s with readData := none }

/-- 44_general R414: ARG0 and ARG1 take the value; a half of RHO, PHI, THETA or OFFSET takes it and the other half
stays. That a write leaves no read data is the model's choice (notes/assumptions/14.md). -/
def Obligations.OperandWritesStoreWholeWords : Prop :=
  ∀ (s : State) (v : Word),
    busPhase (some (.write 0x008 4 v)) s = .next { s with host := { s.host with arg0 := v }, readData := none } ∧
    busPhase (some (.write 0x00C 4 v)) s = .next { s with host := { s.host with arg1 := v }, readData := none } ∧
    busPhase (some (.write 0x400 4 v)) s =
      .next { s with ctu := { s.ctu with rho := s.ctu.rho.extractLsb' 32 32 ++ v }, readData := none } ∧
    busPhase (some (.write 0x404 4 v)) s =
      .next { s with ctu := { s.ctu with rho := v ++ s.ctu.rho.extractLsb' 0 32 }, readData := none } ∧
    busPhase (some (.write 0x408 4 v)) s =
      .next { s with ctu := { s.ctu with phi := s.ctu.phi.extractLsb' 32 32 ++ v }, readData := none } ∧
    busPhase (some (.write 0x40C 4 v)) s =
      .next { s with ctu := { s.ctu with phi := v ++ s.ctu.phi.extractLsb' 0 32 }, readData := none } ∧
    busPhase (some (.write 0x410 4 v)) s =
      .next { s with ctu := { s.ctu with theta := s.ctu.theta.extractLsb' 32 32 ++ v }, readData := none } ∧
    busPhase (some (.write 0x414 4 v)) s =
      .next { s with ctu := { s.ctu with theta := v ++ s.ctu.theta.extractLsb' 0 32 }, readData := none } ∧
    busPhase (some (.write 0x418 4 v)) s =
      .next { s with ctu := { s.ctu with offset := s.ctu.offset.extractLsb' 32 32 ++ v }, readData := none } ∧
    busPhase (some (.write 0x41C 4 v)) s =
      .next { s with ctu := { s.ctu with offset := v ++ s.ctu.offset.extractLsb' 0 32 }, readData := none }

/-- 44_general R415, R418 and the row of R413 on read-only registers: ERR is cleared bit by bit by ones, SWPHASE
takes bits 2:0, a read-only register ignores the write; no such write does anything else. That a
write leaves no read data is the model's choice (notes/assumptions/14.md). -/
def Obligations.ErrSwphaseAndReadOnlyWrites : Prop :=
  ∀ (s : State) (v : Word),
    busPhase (some (.write 0x018 4 v)) s =
      .next { s with host := { s.host with err := s.host.err &&& ~~~(v.extractLsb' 0 3) }, readData := none } ∧
    busPhase (some (.write 0x024 4 v)) s =
      .next { s with host := { s.host with swphase := v.extractLsb' 0 3 }, readData := none } ∧
    (∀ (r : Reg) (a : Addr), Reg.hostWrites r = false → a.toNat = Reg.addr r →
      busPhase (some (.write a 4 v)) s = .next { s with readData := none })

/-- 44_general R416 and R417 with 60_exceptions R445 and R446: a write of IRQ_EN takes bits 6:0, and the IRQ line
of the next cycle follows the enabled pending bits; a write of IRQ_PEND clears the bits written as ones after the
ticks of the cycle, RX_READY being set again while RXQ holds 47 bytes and RX_OVERFLOW by a byte dropped in the
cycle. -/
def Obligations.IrqWritesMaskAndClear : Prop :=
  ∀ (s : State) (v : Word) (rx : Option Byte),
    (∃ t, step (s.withNextInput ⟨false, some (.write 0x01C 4 v), rx⟩) = .next t ∧
      t.host.irqEn = v.extractLsb' 0 7 ∧
      (t.lines.irq = true ↔ ∃ k, k < 7 ∧ t.host.irqPend.getLsbD k = true ∧ v.getLsbD k = true)) ∧
    (∃ t, step (s.withNextInput ⟨false, some (.write 0x020 4 v), rx⟩) = .next t ∧
      (∀ k, k < 7 → k ≠ 4 → k ≠ 5 →
        t.host.irqPend.getLsbD k = (s.atBusPhase.host.irqPend.getLsbD k && !v.getLsbD k)) ∧
      (t.host.irqPend.getLsbD 4 =
        ((s.atBusPhase.host.irqPend.getLsbD 4 && !v.getLsbD 4) || decide (47 ≤ t.pvu.rxq.length))) ∧
      (t.host.irqPend.getLsbD 5 =
        ((s.atBusPhase.host.irqPend.getLsbD 5 && !v.getLsbD 5) ||
          (rx.isSome && decide (s.params.rxqDepth ≤ s.pvu.rxq.length)))))

/-- 40_packet_validator R209 with 10_state R54: a write of PKTBUF_Wk stores its bytes, byte 47 not existing, and
clears PKT_VALID; every other byte and everything else stays, and a read gives the word back, byte 47 reading
0. That a write leaves no read data is the model's choice (notes/assumptions/14.md). -/
def Obligations.PktbufWriteStoresItsBytes : Prop :=
  ∀ (s : State) (k : Fin 12) (a : Addr) (v : Word),
    Memory.wf s.pvu.pktbuf = true → a.toNat = 0x140 + 4 * k.val →
    ∃ t, busPhase (some (.write a 4 v)) s = .next t ∧
      (∀ j, j < 4 → 4 * k.val + j ≤ 46 → Memory.read t.pvu.pktbuf (4 * k.val + j) = v.extractLsb' (8 * j) 8) ∧
      (∀ j, j < 4 * k.val ∨ 4 * k.val + 3 < j ∨ 46 < j →
        Memory.read t.pvu.pktbuf j = Memory.read s.pvu.pktbuf j) ∧
      t = { s with pvu := { s.pvu with pktbuf := t.pvu.pktbuf, pktValid := false }, readData := none } ∧
      t.regValue (.pktbufW k) = (if k.val = 11 then v &&& 0x00FFFFFF#32 else v) ∧
      (∀ k' : Fin 12, k' ≠ k → t.regValue (.pktbufW k') = s.regValue (.pktbufW k'))

/-- What a read of each register returns (10_state R36 to R72, 44_general R412, 20_memory R103): the plain registers,
the codes of RESULT (30_encoding R155) and PKT_STATUS (R48), the fields of RES (R56) and STATUS (R42), the halves of
every 64-bit register, PKTBUF_Wk (R54), and the field views (R51, R52, R53, R55) in the layout of 20_memory R102,
which the model adopts (PRESUMED, notes/assumptions/7.md). That the lines STATUS shows are those latched at the end
of the cycle before is DEDUCED (notes/assumptions/13.md). -/
def Obligations.ComputedRegistersShowTheState : Prop :=
  ∀ (s : State) (b : Nat → Byte), (∀ j, j < 47 → Memory.read s.pvu.pktbuf j = b j) →
    s.regValue .id = 0x41454753 ∧ s.regValue .cmd = 0#24 ++ s.host.lastcmd ∧
    s.regValue .arg0 = s.host.arg0 ∧ s.regValue .arg1 = s.host.arg1 ∧
    s.regValue .result = (match s.host.result with
      | .ok => 0 | .pktLength => 1 | .pktSentinel => 2 | .pktCrc => 3 | .invalidResolution => 4 | .invalidSpeed => 5
      | .stepsTooSmall => 6 | .resolutionTooFine => 7 | .busy => 8 | .illegalCommand => 9 | .invalidRings => 10
      | .invalidCorr => 11 | .ctuNonfinite => 12 | .notInRingWait => 13 | .noSweep => 14) ∧
    s.regValue .err = 0#29 ++ s.host.err ∧ s.regValue .irqEn = 0#25 ++ s.host.irqEn ∧
    s.regValue .irqPend = 0#25 ++ s.host.irqPend ∧ s.regValue .swphase = 0#29 ++ s.host.swphase ∧
    s.regValue .rxCount = BitVec.ofNat 32 s.pvu.rxq.length ∧
    s.regValue .pktStatus = 0#24 ++
      (match s.pvu.pktLast with | .ok => 0#4 | .length => 1#4 | .sentinel => 2#4 | .crc => 3#4) ++
      0#3 ++ BitVec.ofBool s.pvu.pktValid ∧
    s.regValue .resyncCnt = s.pvu.resyncCnt ∧ s.regValue .pktOkCnt = s.pvu.pktOkCnt ∧
    s.regValue .pktErrCnt = s.pvu.pktErrCnt ∧
    s.regValue .res = 0#13 ++
      (match s.sdu.mscode with
        | .full => s.params.msTable.full ++ 0x0100#16 | .half => s.params.msTable.half ++ 0x0201#16
        | .quarter => s.params.msTable.quarter ++ 0x0402#16 | .eighth => s.params.msTable.eighth ++ 0x0803#16
        | .sixteenth => s.params.msTable.sixteenth ++ 0x1004#16) ∧
    s.regValue .speed = s.sdu.speed ∧ s.regValue .half = s.sdu.half ∧
    s.regValue .rings = s.ssm.rings ∧ s.regValue .prerot = s.ssm.prerot ∧ s.regValue .rto = s.ssm.rto ∧
    s.regValue .spring = s.ssm.spring ∧ s.regValue .ringIdx = s.ssm.ringIdx ∧
    s.regValue .failRing = s.ssm.failRing ∧
    s.regValue .corrLo = s.sdu.corr.extractLsb' 0 32 ∧ s.regValue .corrHi = s.sdu.corr.extractLsb' 32 32 ∧
    s.regValue .posLo = s.sdu.pos.extractLsb' 0 32 ∧ s.regValue .posHi = s.sdu.pos.extractLsb' 32 32 ∧
    s.regValue .angleLo = s.angle.extractLsb' 0 32 ∧ s.regValue .angleHi = s.angle.extractLsb' 32 32 ∧
    s.regValue .stepCntLo = s.sdu.stepCnt.extractLsb' 0 32 ∧ s.regValue .stepCntHi = s.sdu.stepCnt.extractLsb' 32 32 ∧
    s.regValue .turnNLo = s.sdu.turnN.extractLsb' 0 32 ∧ s.regValue .turnNHi = s.sdu.turnN.extractLsb' 32 32 ∧
    s.regValue .sweepAccLo = s.ssm.sweepAcc.extractLsb' 0 32 ∧ s.regValue .sweepAccHi = s.ssm.sweepAcc.extractLsb' 32 32 ∧
    s.regValue .rhoLo = s.ctu.rho.extractLsb' 0 32 ∧ s.regValue .rhoHi = s.ctu.rho.extractLsb' 32 32 ∧
    s.regValue .phiLo = s.ctu.phi.extractLsb' 0 32 ∧ s.regValue .phiHi = s.ctu.phi.extractLsb' 32 32 ∧
    s.regValue .thetaLo = s.ctu.theta.extractLsb' 0 32 ∧ s.regValue .thetaHi = s.ctu.theta.extractLsb' 32 32 ∧
    s.regValue .offsetLo = s.ctu.offset.extractLsb' 0 32 ∧ s.regValue .offsetHi = s.ctu.offset.extractLsb' 32 32 ∧
    s.regValue .xLo = s.ctu.x.extractLsb' 0 32 ∧ s.regValue .xHi = s.ctu.x.extractLsb' 32 32 ∧
    s.regValue .yLo = s.ctu.y.extractLsb' 0 32 ∧ s.regValue .yHi = s.ctu.y.extractLsb' 32 32 ∧
    s.regValue .zLo = s.ctu.z.extractLsb' 0 32 ∧ s.regValue .zHi = s.ctu.z.extractLsb' 32 32 ∧
    (∀ k : Fin 12, s.regValue (.pktbufW k) =
      (if k.val = 11 then 0#8 else b (4 * k.val + 3)) ++ b (4 * k.val + 2) ++ b (4 * k.val + 1) ++ b (4 * k.val)) ∧
    s.regValue .fHdr = 0#8 ++ b 46 ++ b 1 ++ b 0 ∧
    s.regValue .fSpeed = 0#16 ++ b 3 ++ b 2 ∧ s.regValue .fStart = 0#16 ++ b 5 ++ b 4 ∧
    s.regValue .fEnd = 0#16 ++ b 43 ++ b 42 ∧ s.regValue .fTime = 0#16 ++ b 45 ++ b 44 ∧
    (∀ i : Fin 12, s.regValue (.sample i) = 0#8 ++ b (8 + 3 * i.val) ++ b (7 + 3 * i.val) ++ b (6 + 3 * i.val)) ∧
    s.regValue .crcCalc = 0#24 ++ crc8 s.params.crcTable ((List.range 46).map b) ∧
    (s.regValue .status).getLsbD 0 = decide (s.sdu.state ≠ .idle) ∧
    (s.regValue .status).getLsbD 1 = decide (s.ssm.state ≠ .idle) ∧
    (s.regValue .status).getLsbD 2 = decide (s.ssm.state = .ringWait) ∧
    (s.regValue .status).getLsbD 3 = s.ssm.cancelPend ∧
    (s.regValue .status).getLsbD 4 = s.pvu.pktValid ∧
    (s.regValue .status).getLsbD 5 = s.lines.step ∧
    (s.regValue .status).getLsbD 6 = s.lines.dir ∧
    (s.regValue .status).getLsbD 7 = s.lines.irq ∧
    (s.regValue .status).extractLsb' 8 3 = s.lines.ms ∧
    (s.regValue .status).getLsbD 11 = false ∧
    (s.regValue .status).extractLsb' 12 3 =
      (match s.ssm.state with | .idle => 0 | .prerot => 1 | .ringWait => 2 | .advance => 3 | .returning => 4) ∧
    (s.regValue .status).getLsbD 15 = false ∧
    (s.regValue .status).extractLsb' 16 2 =
      (match s.ssm.seqEnd with | .none => 0 | .complete => 1 | .cancelled => 2 | .timeout => 3) ∧
    (s.regValue .status).extractLsb' 18 2 =
      (match s.sdu.state with | .idle => 0 | .setup => 1 | .high => 2 | .low => 3) ∧
    (s.regValue .status).extractLsb' 20 12 = 0

/-! ## How a command ends -/

/-- 60_exceptions R441: a CMD write that ends in a rejection changes LASTCMD, RESULT, ERR[0] and IRQ_PEND[6], and
no other state. -/
def Obligations.RejectionChangesOnlyItsRecord : Prop :=
  ∀ (v : Word) (s t : State), dispatchCommand v s = .next t → t.host.result.isRejection = true →
    t = { s with
      host := { s.host with
        lastcmd := v.setWidth 8
        result := t.host.result
        err := s.host.err ||| 0b001
        irqPend := s.host.irqPend ||| 0b1000000 } }

/-- 60_exceptions R440, R442 and R443: a completion, a packet error among them, leaves ERR and IRQ_PEND[6] as they
were, and each rejection code comes only from the commands and the causes listed for it. -/
def Obligations.OutcomeCodesHaveTheirCauses : Prop :=
  ∀ (i : Instr) (s t : State), exec i s = .next t →
    (t.host.result.isRejection = false →
      t.host.err = s.host.err ∧ t.host.irqPend.getLsbD 6 = s.host.irqPend.getLsbD 6) ∧
    (t.host.result.isRejection = true →
    (t.host.result = .invalidResolution ∧ i = .setRes ∧ 4 < s.host.arg0.toNat) ∨
    (t.host.result = .invalidSpeed ∧ i = .setSpeed ∧ (s.host.arg0 = 0 ∨ 4500 < s.host.arg0.toNat)) ∨
    (t.host.result = .stepsTooSmall ∧ i = .turn ∧ s.host.arg0 = 0) ∨
    (t.host.result = .resolutionTooFine ∧ i = .setRings ∧ 100 * Preset.md s.sdu.mscode < s.host.arg0.toNat) ∨
    (t.host.result = .resolutionTooFine ∧ i = .sweepStart ∧ 100 * Preset.md s.sdu.mscode < s.ssm.rings.toNat) ∨
    (t.host.result = .busy ∧ Instr.checksBusy i = true ∧ (s.sdu.state ≠ .idle ∨ s.ssm.state ≠ .idle)) ∨
    (t.host.result = .invalidRings ∧ i = .setRings ∧ s.host.arg0 = 0) ∨
    (t.host.result = .invalidCorr ∧ i = .setCorr ∧
      ¬(F64.finite (s.host.arg1 ++ s.host.arg0) = true ∧ 0 < F64.toRat (s.host.arg1 ++ s.host.arg0))) ∨
    (t.host.result = .ctuNonfinite ∧ i = .ctuXform ∧
      ¬(F64.finite s.ctu.rho = true ∧ F64.finite s.ctu.phi = true ∧ F64.finite s.ctu.theta = true ∧
        F64.finite s.ctu.offset = true)) ∨
    (t.host.result = .notInRingWait ∧ i = .ringDone ∧ s.ssm.state ≠ .ringWait) ∨
    (t.host.result = .noSweep ∧ i = .sweepCancel ∧ s.ssm.state = .idle))

/-- 30_encoding R154: the configuration and motion commands check BUSY_NOW first; no other command reports
BUSY. -/
def Obligations.BusyRejectsMotionAndConfiguration : Prop :=
  (∀ (i : Instr) (s : State),
    i ∈ ([.setRes, .setSpeed, .setCorr, .turn, .setRings, .setPrerot, .setRto, .sweepStart] : List Instr) →
    (s.sdu.state ≠ .idle ∨ s.ssm.state ≠ .idle) → exec i s = .next (s.reject .busy)) ∧
  (∀ (i : Instr) (s : State),
    i ∈ ([.nop, .pktRead, .pktCheck, .ringDone, .sweepCancel, .ctuXform] : List Instr) →
    ∃ t, exec i s = .next t ∧ t.host.result ≠ .busy)

/-- The frame of every command, over every state: it answers a next state. No command writes ARG0, ARG1, IRQ_EN, SWPHASE,
the CTU operands or POS (10_state R33, R39, R40, R46, R59; 43_coordinate_transform R382). NOP, PKT_READ, PKT_CHECK and
CTU_XFORM never disturb a turn or a sweep (44_general R420); only PKT_READ writes a byte of PKTBUF; only PKT_READ and
PKT_CHECK touch the packet validator; only CTU_XFORM writes X, Y, Z; of ERR a command sets CMD_REJECT only, of IRQ_PEND
CMD_REJECT, SWEEP_START also RING_REQ and SWEEP_CANCEL also SWEEP_DONE; the commands of the SDU leave the sequencer's
registers, SET_RINGS, SET_PREROT and SET_RTO the SDU's, and each SET command writes its own register only. That `exec`
leaves LASTCMD, which the dispatch of 30_encoding R152 has written, is DEDUCED (notes/assumptions/25.md); the lines
latched (13.md, DEDUCED), `params` (2.md), `inputs` (1.md) and `readData` (14.md) are the model's own fields (DESIGN
CHOICE). -/
def Obligations.CommandsKeepToTheirUnit : Prop :=
  ∀ (i : Instr) (s : State), ∃ t, exec i s = .next t ∧
    t.host.arg0 = s.host.arg0 ∧ t.host.arg1 = s.host.arg1 ∧ t.host.irqEn = s.host.irqEn ∧
    t.host.swphase = s.host.swphase ∧ t.host.lastcmd = s.host.lastcmd ∧
    t.ctu.rho = s.ctu.rho ∧ t.ctu.phi = s.ctu.phi ∧ t.ctu.theta = s.ctu.theta ∧ t.ctu.offset = s.ctu.offset ∧
    t.lines = s.lines ∧ t.params = s.params ∧ t.inputs = s.inputs ∧ t.readData = s.readData ∧
    (∀ k, k ≠ 0 → t.host.err.getLsbD k = s.host.err.getLsbD k) ∧
    (∀ k, k ≠ 6 → ¬(i = .sweepStart ∧ k = 2) → ¬(i = .sweepCancel ∧ k = 1) →
      t.host.irqPend.getLsbD k = s.host.irqPend.getLsbD k) ∧
    (i = .nop ∨ i = .pktRead ∨ i = .pktCheck ∨ i = .ctuXform → t.sdu = s.sdu ∧ t.ssm = s.ssm) ∧
    (i ≠ .pktRead → ∀ j, Memory.read t.pvu.pktbuf j = Memory.read s.pvu.pktbuf j) ∧
    (i ≠ .pktRead → i ≠ .pktCheck → t.pvu = s.pvu) ∧
    (i = .pktCheck → t.pvu = { s.pvu with pktValid := t.pvu.pktValid, pktLast := t.pvu.pktLast }) ∧
    (i ≠ .ctuXform → t.ctu = s.ctu) ∧
    (i = .setRes ∨ i = .setSpeed ∨ i = .setCorr ∨ i = .turn → t.ssm = s.ssm) ∧
    (i = .setRings ∨ i = .setPrerot ∨ i = .setRto → t.sdu = s.sdu) ∧
    (i = .setRes → t.sdu = { s.sdu with mscode := t.sdu.mscode }) ∧
    (i = .setSpeed → t.sdu = { s.sdu with speed := t.sdu.speed }) ∧
    (i = .setCorr → t.sdu = { s.sdu with corr := t.sdu.corr }) ∧
    (i = .setRings → t.ssm = { s.ssm with rings := t.ssm.rings }) ∧
    (i = .setPrerot → t.ssm = { s.ssm with prerot := t.ssm.prerot }) ∧
    (i = .setRto → t.ssm = { s.ssm with rto := t.ssm.rto }) ∧
    (i = .turn ∨ i = .sweepStart ∨ i = .ringDone ∨ i = .sweepCancel →
      t.sdu.mscode = s.sdu.mscode ∧ t.sdu.speed = s.sdu.speed ∧ t.sdu.corr = s.sdu.corr ∧
      t.sdu.phCnt = s.sdu.phCnt) ∧
    t.sdu.pos = s.sdu.pos ∧
    (i = .sweepStart → t.ssm.rings = s.ssm.rings ∧ t.ssm.prerot = s.ssm.prerot ∧ t.ssm.rto = s.ssm.rto ∧
      t.ssm.failRing = s.ssm.failRing) ∧
    (i = .ringDone → t.ssm = { s.ssm with ringIdx := t.ssm.ringIdx, state := t.ssm.state }) ∧
    (i = .sweepCancel → t.ssm = { s.ssm with
      state := t.ssm.state, cancelPend := t.ssm.cancelPend, seqEnd := t.ssm.seqEnd })

/-! ## The packet validator -/

/-- 44_general R410: NOP reports success and does nothing else; its CMD write also sets LASTCMD to 0x00. -/
def Obligations.NopReportsSuccess : Prop :=
  ∀ s : State,
    exec .nop s = .next { s with host := { s.host with result := .ok } } ∧
    dispatchCommand 0x00000000#32 s =
      .next { s with host := { s.host with result := .ok, lastcmd := 0x00 } }

/-- 40_packet_validator R202: CRC8 starts at 0x00 and takes one byte at a time through the table, with no final
XOR. The spec takes this form of the CRC from general knowledge (93 G3; PRESUMED, notes/assumptions/4.md). -/
def Obligations.CrcTakesOneByteAtATime : Prop :=
  ∀ (table : List Byte) (bytes : List Byte) (b : Byte),
    crc8 table [] = 0x00 ∧
    crc8 table (bytes ++ [b]) = table.getD (crc8 table bytes ^^^ b).toNat 0

/-- 40_packet_validator R204: length, then sentinel, then CRC; the first failing check decides. -/
def Obligations.ValidationChecksInOrder : Prop :=
  ∀ (table : List Byte) (buf : Memory) (k : Nat),
    (validate table buf k = .length ↔ k < 47) ∧
    (validate table buf k = .sentinel ↔ 47 ≤ k ∧ Memory.read buf 0 ≠ 0x54) ∧
    (validate table buf k = .crc ↔ 47 ≤ k ∧ Memory.read buf 0 = 0x54 ∧
      crc8 table ((List.range 46).map (Memory.read buf)) ≠ Memory.read buf 46) ∧
    (validate table buf k = .ok ↔ 47 ≤ k ∧ Memory.read buf 0 = 0x54 ∧
      crc8 table ((List.range 46).map (Memory.read buf)) = Memory.read buf 46)

/-- 40_packet_validator R205: PKT_READ, with every byte of PKTBUF, the counters, RXQ, RESULT, and the frame. -/
def Obligations.PktReadTakesAndValidatesOnePacket : Prop :=
  ∀ s : State, Memory.wf s.pvu.pktbuf = true →
    ∃ t, exec .pktRead s = .next t ∧ decode 0x00000010#32 = .ok .pktRead ∧
    (∀ j, j < 47 → Memory.read t.pvu.pktbuf j =
      if j < min 47 s.pvu.rxq.length then s.pvu.rxq.getD j 0 else 0x00) ∧
    (∀ j, 47 ≤ j → Memory.read t.pvu.pktbuf j = Memory.read s.pvu.pktbuf j) ∧
    t.pvu.pktLast = validate s.params.crcTable t.pvu.pktbuf (min 47 s.pvu.rxq.length) ∧
    t.host.result = (match t.pvu.pktLast with
      | .ok => .ok | .length => .pktLength | .sentinel => .pktSentinel | .crc => .pktCrc) ∧
    (t.pvu.pktLast = .ok →
      t.pvu.pktValid = true ∧ t.pvu.pktOkCnt = s.pvu.pktOkCnt + 1 ∧ t.pvu.pktErrCnt = s.pvu.pktErrCnt ∧
      t.pvu.resyncCnt = 0 ∧ t.pvu.rxq = s.pvu.rxq.drop 47) ∧
    (t.pvu.pktLast ≠ .ok →
      t.pvu.pktValid = false ∧ t.pvu.pktOkCnt = s.pvu.pktOkCnt ∧ t.pvu.pktErrCnt = s.pvu.pktErrCnt + 1 ∧
      t.pvu.resyncCnt = BitVec.ofNat 32 (resync (s.pvu.rxq.drop 47)).2 ∧
      t.pvu.rxq = (resync (s.pvu.rxq.drop 47)).1) ∧
    t = { s with pvu := t.pvu, host := { s.host with result := t.host.result } }

/-- 40_packet_validator R206: Resync discards exactly the bytes before the oldest sentinel, or all of them. -/
def Obligations.ResyncStopsAtFirstSentinel : Prop :=
  ∀ q : List Byte,
    (resync q).1 = q.drop (resync q).2 ∧
    (∀ b ∈ q.take (resync q).2, b ≠ 0x54) ∧
    ((resync q).1 = [] ∨ (resync q).1.head? = some 0x54) ∧
    (resync q).2 ≤ q.length

/-- 40_packet_validator R207: PKT_CHECK validates the buffer in place, never with PKT_LENGTH. -/
def Obligations.PktCheckValidatesInPlace : Prop :=
  ∀ s : State, decode 0x00000011#32 = .ok .pktCheck ∧
    ∃ c, c = validate s.params.crcTable s.pvu.pktbuf 47 ∧ c ≠ .length ∧
      exec .pktCheck s = .next { s with
        pvu := { s.pvu with pktValid := decide (c = .ok), pktLast := c }
        host := { s.host with result :=
          match c with
          | .ok => .ok | .length => .pktLength | .sentinel => .pktSentinel | .crc => .pktCrc } }

/-- 40_packet_validator R203 and R211 item 3: the default P_CRC_TABLE is the generated table of polynomial 0x4D, and
under it the CRC over a whole accepted packet is 0. That it is the sensor's table is PRESUMED
(notes/assumptions/4.md). -/
def Obligations.DefaultTableGivesZeroOverWholePackets : Prop :=
  defaultParams.crcTable = (List.range 256).map crcEntry ∧
  ∀ buf : Memory, validate defaultParams.crcTable buf 47 = .ok →
    crc8 defaultParams.crcTable ((List.range 47).map (Memory.read buf)) = 0x00

/-- 40_packet_validator R211 item 2: under the default table (PRESUMED, notes/assumptions/4.md) every single-bit
flip of bytes 1 to 45 of an accepted packet is reported as PKT_CRC, and of byte 0 as PKT_SENTINEL. -/
def Obligations.SingleBitFlipIsAlwaysDetected : Prop :=
  ∀ (buf : Memory) (k j : Nat), Memory.wf buf = true → validate defaultParams.crcTable buf 47 = .ok → j < 8 →
    (k = 0 → validate defaultParams.crcTable
      (Memory.write buf k (Memory.read buf k ^^^ (1#8 <<< j))) 47 = .sentinel) ∧
    (1 ≤ k → k ≤ 45 → validate defaultParams.crcTable
      (Memory.write buf k (Memory.read buf k ^^^ (1#8 <<< j))) 47 = .crc)

/-- 40_packet_validator R212: one 47-byte block that fails, followed by N valid packets, all in RXQ: N + 1 reads
give one failure and then N times OK, and RXQ is empty. Holds for any CRC table. -/
def Obligations.ResyncRecoversAllLaterPackets : Prop :=
  ∀ (s : State) (bad : List Byte) (packets : List (List Byte)),
    Memory.wf s.pvu.pktbuf = true → bad.length = 47 → ¬goodPacket s.params.crcTable bad →
    (∀ p ∈ packets, goodPacket s.params.crcTable p) →
    s.pvu.rxq = bad ++ packets.flatten →
    ∃ c, (c = .pktSentinel ∨ c = .pktCrc) ∧
      (pktReads (packets.length + 1) s).1 = c :: List.replicate packets.length .ok ∧
      (pktReads (packets.length + 1) s).2.pvu.rxq = []

/-- 40_packet_validator R200: the RX phase appends the byte, or drops it and records RX_OVERFLOW. -/
def Obligations.ReceivedByteIsQueuedOrDropped : Prop :=
  ∀ (s : State) (b : Byte),
    rxPhase none s = s ∧
    (s.pvu.rxq.length < s.params.rxqDepth →
      rxPhase (some b) s = { s with pvu := { s.pvu with rxq := s.pvu.rxq ++ [b] } }) ∧
    (s.params.rxqDepth ≤ s.pvu.rxq.length →
      rxPhase (some b) s = { s with
        host := { s.host with err := s.host.err ||| 0b100, irqPend := s.host.irqPend ||| 0b0100000 } })

/-- 20_memory R116: a byte received in the cycle of a PKT_READ is not seen by it and stands last in RXQ after
it. -/
def Obligations.ByteOfTheSameCycleIsNotSeen : Prop :=
  ∀ (s : State) (b : Byte), s.pvu.rxq.length ≤ s.params.rxqDepth → 1 ≤ s.params.rxqDepth →
    ∃ t u, step (s.withNextInput ⟨false, some (.write 0x004 4 0x00000010), some b⟩) = .next t ∧
      step (s.withNextInput ⟨false, some (.write 0x004 4 0x00000010), none⟩) = .next u ∧
      t.pvu = { u.pvu with rxq := u.pvu.rxq ++ [b] } ∧ t.host.result = u.host.result

/-! ## The stepper drive -/

/-- 41_stepper_drive R260: the presets' codes and denominators, the default selector triples (PRESUMED,
notes/assumptions/5.md) and the RES values under them. -/
def Obligations.PresetsHaveTheirCodesAndSelectors : Prop :=
  (∀ p : Preset, (Preset.md p = 2 ^ (Preset.code p).toNat) ∧ Preset.ofCode (Preset.code p).toNat = some p) ∧
  (∀ s : State, s.params.msTable = defaultMsTable →
    s.regValue .res = match s.sdu.mscode with
      | .full => 0x00000100 | .half => 0x00010201 | .quarter => 0x00020402 | .eighth => 0x00030803
      | .sixteenth => 0x00071004)

/-- 41_stepper_drive R262: SET_RES. -/
def Obligations.SetResSelectsPreset : Prop :=
  ∀ s : State, decode 0x00000020#32 = .ok .setRes ∧
    (s.busyNow = true → exec .setRes s = .next (s.reject .busy)) ∧
    (s.busyNow = false → 4 < s.host.arg0.toNat → exec .setRes s = .next (s.reject .invalidResolution)) ∧
    (s.busyNow = false → s.host.arg0.toNat ≤ 4 →
      ∃ p, (Preset.code p).toNat = s.host.arg0.toNat ∧
        exec .setRes s = .next { s with
          sdu := { s.sdu with mscode := p }, host := { s.host with result := .ok } })

/-- 41_stepper_drive R263: SET_SPEED. -/
def Obligations.SetSpeedStoresLegalSpeed : Prop :=
  ∀ s : State, decode 0x00000021#32 = .ok .setSpeed ∧
    (s.busyNow = true → exec .setSpeed s = .next (s.reject .busy)) ∧
    (s.busyNow = false → (s.host.arg0.toNat = 0 ∨ 4500 < s.host.arg0.toNat) →
      exec .setSpeed s = .next (s.reject .invalidSpeed)) ∧
    (s.busyNow = false → 1 ≤ s.host.arg0.toNat → s.host.arg0.toNat ≤ 4500 →
      exec .setSpeed s = .next { s with
        sdu := { s.sdu with speed := s.host.arg0 }, host := { s.host with result := .ok } })

/-- 41_stepper_drive R264: SET_CORR, with ARG1 as the high half of the pattern. -/
def Obligations.SetCorrStoresPositiveFactor : Prop :=
  ∀ (s : State) (c : F64), c = s.host.arg1 ++ s.host.arg0 → decode 0x00000022#32 = .ok .setCorr ∧
    (s.busyNow = true → exec .setCorr s = .next (s.reject .busy)) ∧
    (s.busyNow = false → ¬(F64.finite c = true ∧ 0 < F64.toRat c) →
      exec .setCorr s = .next (s.reject .invalidCorr)) ∧
    (s.busyNow = false → F64.finite c = true → 0 < F64.toRat c →
      exec .setCorr s = .next { s with
        sdu := { s.sdu with corr := c }, host := { s.host with result := .ok } })

/-- 41_stepper_drive R267 with StartTurn of R266: TURN. -/
def Obligations.TurnStartsPulseTrain : Prop :=
  ∀ s : State, decode 0x00000023#32 = .ok .turn ∧
    (s.busyNow = true → exec .turn s = .next (s.reject .busy)) ∧
    (s.busyNow = false → s.host.arg0.toNat = 0 → exec .turn s = .next (s.reject .stepsTooSmall)) ∧
    (s.busyNow = false → 1 ≤ s.host.arg0.toNat →
      exec .turn s = .next { s with
        host := { s.host with result := .ok }
        sdu := { s.sdu with
          turnDir := if s.host.arg1.getLsbD 0 then .ccw else .cw
          turnN := s.host.arg0.setWidth 64
          rem := s.host.arg0.setWidth 64
          stepCnt := 0
          half := BitVec.ofNat 32 (halfPeriod s.params.fclk (Preset.md s.sdu.mscode) s.sdu.speed.toNat)
          turnOrigin := .host
          state := .setup } })

/-- 41_stepper_drive R265: the half-period is the least number of whole cycles not shorter than
1000 · P_FCLK / (400 · md · SPEED), at least 1 and at most 2^32 - 1. -/
def Obligations.HalfPeriodIsNeverTooShort : Prop :=
  ∀ fclk md speed : Nat, 1 ≤ md → 1 ≤ speed →
    1 ≤ halfPeriod fclk md speed ∧ halfPeriod fclk md speed ≤ 2 ^ 32 - 1 ∧
    (halfPeriod fclk md speed = 2 ^ 32 - 1 ∨ fclk * 1000 ≤ halfPeriod fclk md speed * (400 * md * speed)) ∧
    (halfPeriod fclk md speed = 1 ∨ (halfPeriod fclk md speed - 1) * (400 * md * speed) < fclk * 1000)

/-- 41_stepper_drive R268 and R269: the SDU tick in each state, the end of a turn with the new POS, and the event
TURN_COMPLETE as its second result. -/
def Obligations.SduTickFollowsTheStateMachine : Prop :=
  ∀ s : State,
    (s.sdu.state = .idle → sduTick s = (s, false)) ∧
    (s.sdu.state = .setup → sduTick s = ({ s with sdu := { s.sdu with state := .high, phCnt := s.sdu.half } }, false)) ∧
    (s.sdu.state = .high → s.sdu.phCnt = 1 →
      sduTick s = ({ s with sdu := { s.sdu with state := .low, phCnt := s.sdu.half } }, false)) ∧
    ((s.sdu.state = .high ∨ s.sdu.state = .low) → s.sdu.phCnt ≠ 1 →
      sduTick s = ({ s with sdu := { s.sdu with phCnt := s.sdu.phCnt - 1 } }, false)) ∧
    (s.sdu.state = .low → s.sdu.phCnt = 1 → s.sdu.rem ≠ 1 →
      sduTick s = ({ s with sdu := { s.sdu with
        state := .high, phCnt := s.sdu.half, stepCnt := s.sdu.stepCnt + 1, rem := s.sdu.rem - 1 } }, false)) ∧
    (s.sdu.state = .low → s.sdu.phCnt = 1 → s.sdu.rem = 1 →
      sduTick s = ({ s with
        sdu := { s.sdu with
          state := .idle, phCnt := 0, stepCnt := s.sdu.stepCnt + 1, rem := 0
          pos :=
            match s.sdu.turnDir with
            | .cw => s.sdu.pos + s.sdu.turnN * BitVec.ofNat 64 (16 / Preset.md s.sdu.mscode)
            | .ccw => s.sdu.pos - s.sdu.turnN * BitVec.ofNat 64 (16 / Preset.md s.sdu.mscode) }
        host := { s.host with
          irqPend :=
            match s.sdu.turnOrigin with
            | .host => s.host.irqPend ||| 0b0000001
            | .seq => s.host.irqPend } }, true))

/-- 41_stepper_drive R273: the timing of a turn of n steps with half-period H, counted in SDU ticks from SETUP:
HIGH and LOW alternate for H ticks each, STEP_CNT counts the pulses done, and the turn completes in tick
1 + 2·n·H and no earlier. -/
def Obligations.TurnTakesItsExactTime : Prop :=
  ∀ (s : State) (n H : Nat),
    s.sdu.state = .setup → s.sdu.stepCnt = 0 → s.sdu.rem.toNat = n → s.sdu.half.toNat = H → 1 ≤ n → 1 ≤ H →
    (∀ m, m < 2 * n * H →
      (sduTick (sduTicks m s)).2 = false ∧
      (sduTicks (1 + m) s).sdu.state = (if m / H % 2 = 0 then .high else .low) ∧
      (sduTicks (1 + m) s).sdu.stepCnt.toNat = m / (2 * H) ∧
      (sduTicks (1 + m) s).sdu.pos = s.sdu.pos) ∧
    (sduTick (sduTicks (2 * n * H) s)).2 = true ∧
    (sduTicks (1 + 2 * n * H) s).sdu.state = .idle ∧
    (sduTicks (1 + 2 * n * H) s).sdu.stepCnt.toNat = n ∧
    (sduTicks (1 + 2 * n * H) s).sdu.pos = advancePos s.sdu.turnDir s.sdu.mscode s.sdu.turnN s.sdu.pos

/-- 41_stepper_drive R274: a CW turn and then a CCW turn of the same length, with the preset unchanged, bring POS
and ANGLE back to exactly what they were. -/
def Obligations.CwThenCcwRestoresPosition : Prop :=
  ∀ (s : State) (n : Word), s.busyNow = false → 1 ≤ n.toNat →
    ∃ s1 s3,
      exec .turn { s with host := { s.host with arg0 := n, arg1 := 0 } } = .next s1 ∧
      (sduTicks (1 + 2 * n.toNat * s1.sdu.half.toNat) s1).sdu.state = .idle ∧
      exec .turn { sduTicks (1 + 2 * n.toNat * s1.sdu.half.toNat) s1 with
        host := { (sduTicks (1 + 2 * n.toNat * s1.sdu.half.toNat) s1).host with arg0 := n, arg1 := 1 } } =
          .next s3 ∧
      (sduTicks (1 + 2 * n.toNat * s3.sdu.half.toNat) s3).sdu.state = .idle ∧
      (sduTicks (1 + 2 * n.toNat * s3.sdu.half.toNat) s3).sdu.pos = s.sdu.pos ∧
      (sduTicks (1 + 2 * n.toNat * s3.sdu.half.toNat) s3).angle = s.angle

/-- 41_stepper_drive R272: the stop test is the exact comparison of POS · CORR with 1600. -/
def Obligations.AngleReachedIsExact : Prop :=
  ∀ s : State, F64.finite s.sdu.corr = true →
    (s.angleReached = true ↔ (1600 : ℚ) ≤ (s.sdu.pos.toInt : ℚ) * F64.toRat s.sdu.corr)

/-- 41_stepper_drive R271: ANGLE is the one rounding of POS · 360 · CORR / 3200: nearest among the finite patterns
with ties to an even significand, infinite from the overflow bound on, and +0.0 at POS = 0. Where the magnitude passes the
largest finite pattern this rests on RNE64 of 00_scope R10, general knowledge of the spec (notes/assumptions/26.md). -/
def Obligations.AngleIsRoundedOnce : Prop :=
  ∀ (s : State) (q : ℚ), F64.finite s.sdu.corr = true →
    q = (s.sdu.pos.toInt : ℚ) * 360 * F64.toRat s.sdu.corr / 3200 →
    (s.sdu.pos = 0 → s.angle = 0x0000000000000000) ∧
    (|q| < 2 ^ 1024 - 2 ^ 970 →
      F64.finite s.angle = true ∧
      ∀ b : F64, F64.finite b = true →
        |F64.toRat s.angle - q| ≤ |F64.toRat b - q| ∧
        (|F64.toRat s.angle - q| = |F64.toRat b - q| →
          F64.toRat b = F64.toRat s.angle ∨ s.angle.getLsbD 0 = false)) ∧
    (2 ^ 1024 - 2 ^ 970 ≤ |q| →
      s.angle = if q < 0 then 0xFFF0000000000000 else 0x7FF0000000000000)

/-- 41_stepper_drive R275: outside reset, MSCODE, SPEED and CORR change only by their SET command in a cycle whose
bus phase finds nothing moving; POS changes only when a turn completes; and DIR, TURN_N and HALF change only when
a turn starts. -/
def Obligations.MotorStateChangesOnlyAsAllowed : Prop :=
  ∀ s t : State, s.nextInput.rst = false → step s = .next t →
    (t.sdu.mscode ≠ s.sdu.mscode →
      s.nextInput.access = some (.write 0x004 4 0x00000020) ∧ s.atBusPhase.busyNow = false) ∧
    (t.sdu.speed ≠ s.sdu.speed →
      s.nextInput.access = some (.write 0x004 4 0x00000021) ∧ s.atBusPhase.busyNow = false) ∧
    (t.sdu.corr ≠ s.sdu.corr →
      s.nextInput.access = some (.write 0x004 4 0x00000022) ∧ s.atBusPhase.busyNow = false) ∧
    (t.sdu.pos ≠ s.sdu.pos → s.sdu.state = .low ∧ s.sdu.phCnt = 1 ∧ s.sdu.rem = 1) ∧
    (t.sdu.turnDir ≠ s.sdu.turnDir ∨ t.sdu.turnN ≠ s.sdu.turnN ∨ t.sdu.half ≠ s.sdu.half →
      t.sdu.state = .setup ∧ t.sdu.stepCnt = 0 ∧ t.sdu.rem = t.sdu.turnN)

/-! ## The sweep sequencer -/

/-- 42_sweep_sequencer R320, R321 and R322: SET_RINGS, and SET_PREROT and SET_RTO, which take any value. -/
def Obligations.SweepConfigurationCommands : Prop :=
  ∀ s : State, decode 0x00000030#32 = .ok .setRings ∧ decode 0x00000031#32 = .ok .setPrerot ∧
    decode 0x00000032#32 = .ok .setRto ∧
    (s.busyNow = true → exec .setRings s = .next (s.reject .busy) ∧
      exec .setPrerot s = .next (s.reject .busy) ∧ exec .setRto s = .next (s.reject .busy)) ∧
    (s.busyNow = false → s.host.arg0.toNat = 0 → exec .setRings s = .next (s.reject .invalidRings)) ∧
    (s.busyNow = false → 100 * Preset.md s.sdu.mscode < s.host.arg0.toNat →
      exec .setRings s = .next (s.reject .resolutionTooFine)) ∧
    (s.busyNow = false → 1 ≤ s.host.arg0.toNat → s.host.arg0.toNat ≤ 100 * Preset.md s.sdu.mscode →
      exec .setRings s = .next { s with
        ssm := { s.ssm with rings := s.host.arg0 }, host := { s.host with result := .ok } }) ∧
    (s.busyNow = false →
      exec .setPrerot s = .next { s with
        ssm := { s.ssm with prerot := s.host.arg0 }, host := { s.host with result := .ok } } ∧
      exec .setRto s = .next { s with
        ssm := { s.ssm with rto := s.host.arg0 }, host := { s.host with result := .ok } })

/-- 42_sweep_sequencer R323 with 00_scope R12: StepsPerRing is 100·md / rings rounded to the nearest integer, ties
to even (from general knowledge, 93 G6; notes/assumptions/8.md), and lies in [1, 100·md]. -/
def Obligations.StepsPerRingIsNearest : Prop :=
  ∀ md rings : Nat, 1 ≤ rings → rings ≤ 100 * md →
    1 ≤ stepsPerRing md rings ∧ stepsPerRing md rings ≤ 100 * md ∧
    2 * (stepsPerRing md rings * rings) ≤ 2 * (100 * md) + rings ∧
    2 * (100 * md) ≤ 2 * (stepsPerRing md rings * rings) + rings ∧
    ((2 * (stepsPerRing md rings * rings) = 2 * (100 * md) + rings ∨
      2 * (100 * md) = 2 * (stepsPerRing md rings * rings) + rings) → stepsPerRing md rings % 2 = 0)

/-- 42_sweep_sequencer R324: SWEEP_START, with and without a pre-rotation. -/
def Obligations.SweepStartBeginsASweep : Prop :=
  ∀ s : State, decode 0x00000033#32 = .ok .sweepStart ∧
    (s.busyNow = true → exec .sweepStart s = .next (s.reject .busy)) ∧
    (s.busyNow = false → 100 * Preset.md s.sdu.mscode < s.ssm.rings.toNat →
      exec .sweepStart s = .next (s.reject .resolutionTooFine)) ∧
    (s.busyNow = false → s.ssm.rings.toNat ≤ 100 * Preset.md s.sdu.mscode → s.ssm.prerot = 0 →
      exec .sweepStart s = .next { s with
        host := { s.host with result := .ok, irqPend := s.host.irqPend ||| 0b0000100 }
        ssm := { s.ssm with
          spring := BitVec.ofNat 32 (stepsPerRing (Preset.md s.sdu.mscode) s.ssm.rings.toNat)
          sweepAcc := 0, ringIdx := 0, cancelPend := false, seqEnd := .none
          state := .ringWait, rtoCnt := 0 } }) ∧
    (s.busyNow = false → s.ssm.rings.toNat ≤ 100 * Preset.md s.sdu.mscode → s.ssm.prerot ≠ 0 →
      exec .sweepStart s = .next { s with
        host := { s.host with result := .ok }
        sdu := { s.sdu with
          turnDir := .cw, turnN := s.ssm.prerot.setWidth 64, rem := s.ssm.prerot.setWidth 64, stepCnt := 0
          half := BitVec.ofNat 32 (halfPeriod s.params.fclk (Preset.md s.sdu.mscode) s.sdu.speed.toNat)
          turnOrigin := .seq, state := .setup }
        ssm := { s.ssm with
          spring := BitVec.ofNat 32 (stepsPerRing (Preset.md s.sdu.mscode) s.ssm.rings.toNat)
          sweepAcc := 0, ringIdx := 0, cancelPend := false, seqEnd := .none, state := .prerot } })

/-- 42_sweep_sequencer R325: RING_DONE. -/
def Obligations.RingDoneAdvancesOneRing : Prop :=
  ∀ s : State, decode 0x00000034#32 = .ok .ringDone ∧
    (s.ssm.state ≠ .ringWait → exec .ringDone s = .next (s.reject .notInRingWait)) ∧
    (s.ssm.state = .ringWait →
      exec .ringDone s = .next { s with
        host := { s.host with result := .ok }
        sdu := { s.sdu with
          turnDir := .cw, turnN := s.ssm.spring.setWidth 64, rem := s.ssm.spring.setWidth 64, stepCnt := 0
          half := BitVec.ofNat 32 (halfPeriod s.params.fclk (Preset.md s.sdu.mscode) s.sdu.speed.toNat)
          turnOrigin := .seq, state := .setup }
        ssm := { s.ssm with ringIdx := s.ssm.ringIdx + 1, state := .advance } })

/-- 42_sweep_sequencer R326: SWEEP_CANCEL in each state of the sequencer. -/
def Obligations.SweepCancelActsAtRingBoundary : Prop :=
  ∀ s : State, decode 0x00000035#32 = .ok .sweepCancel ∧
    (s.ssm.state = .idle → exec .sweepCancel s = .next (s.reject .noSweep)) ∧
    (s.ssm.state = .ringWait →
      exec .sweepCancel s = .next { s.enterReturn .cancelled with
        host := { (s.enterReturn .cancelled).host with result := .ok } }) ∧
    (s.ssm.state = .prerot ∨ s.ssm.state = .advance →
      exec .sweepCancel s = .next { s with
        host := { s.host with result := .ok }, ssm := { s.ssm with cancelPend := true } }) ∧
    (s.ssm.state = .returning →
      exec .sweepCancel s = .next { s with host := { s.host with result := .ok } })

/-- 42_sweep_sequencer R327 to R331: EnterRingWait, EnterReturn with the reset rotation over exactly the
accumulated steps, and the SSM tick when a turn completes, a pending cancel winning over the angle, and when none
does. -/
def Obligations.SsmTickFollowsTheStateMachine : Prop :=
  ∀ (s : State) (code : SeqEnd),
    s.enterRingWait = { s with
      ssm := { s.ssm with state := .ringWait, rtoCnt := 0 }
      host := { s.host with irqPend := s.host.irqPend ||| 0b0000100 } } ∧
    (s.ssm.sweepAcc ≠ 0 → s.enterReturn code = { s with
      ssm := { s.ssm with seqEnd := code, cancelPend := false, state := .returning }
      sdu := { s.sdu with
        turnDir := .ccw, turnN := s.ssm.sweepAcc, rem := s.ssm.sweepAcc, stepCnt := 0
        half := BitVec.ofNat 32 (halfPeriod s.params.fclk (Preset.md s.sdu.mscode) s.sdu.speed.toNat)
        turnOrigin := .seq, state := .setup } }) ∧
    (s.ssm.sweepAcc = 0 → s.enterReturn code = { s with
      ssm := { s.ssm with seqEnd := code, cancelPend := false, state := .idle }
      host := { s.host with irqPend := s.host.irqPend ||| 0b0000010 } }) ∧
    (∀ done, s.ssm.state = .idle → ssmTick done s = s) ∧
    (s.ssm.state ≠ .ringWait → ssmTick false s = s) ∧
    (s.ssm.state = .prerot → ∀ u, u = { s with
        ssm := { s.ssm with sweepAcc := s.ssm.sweepAcc + s.ssm.prerot.setWidth 64 } } →
      ssmTick true s = if s.ssm.cancelPend = true then u.enterReturn .cancelled else u.enterRingWait) ∧
    (s.ssm.state = .advance → ∀ u, u = { s with
        ssm := { s.ssm with sweepAcc := s.ssm.sweepAcc + s.ssm.spring.setWidth 64 } } →
      ssmTick true s =
        if s.ssm.cancelPend = true then u.enterReturn .cancelled
        else if s.angleReached = true then u.enterReturn .complete
        else u.enterRingWait) ∧
    (s.ssm.state = .returning → ssmTick true s = { s with
      ssm := { s.ssm with state := .idle }
      host := { s.host with irqPend := s.host.irqPend ||| 0b0000010 } })

/-- 42_sweep_sequencer R332 with EnterReturn of R328, R334 (timing) and 70_reset_and_hazards R499: RING_WAIT with
RTO = R lasts exactly R ticks; tick R records the timeout and enters the return, which turns SWEEP_ACC steps CCW, or
ends the sweep at once if SWEEP_ACC = 0. With RTO = 0 it lasts for ever. -/
def Obligations.RingTimeoutFiresAfterRtoTicks : Prop :=
  ∀ s t : State, s.ssm.state = .ringWait → s.ssm.rtoCnt = 0 → t = (ssmTick false)^[s.ssm.rto.toNat] s →
    (s.ssm.rto ≠ 0 →
      (∀ k, k < s.ssm.rto.toNat →
        (ssmTick false)^[k] s = { s with ssm := { s.ssm with rtoCnt := BitVec.ofNat 32 k } }) ∧
      t.host.err = s.host.err ||| 0b010 ∧
      (s.ssm.sweepAcc ≠ 0 → t = { s with
        host := { s.host with err := t.host.err, irqPend := s.host.irqPend ||| 0b0001000 }
        ssm := { s.ssm with
          rtoCnt := s.ssm.rto, failRing := s.ssm.ringIdx, seqEnd := .timeout, cancelPend := false
          state := .returning }
        sdu := { s.sdu with
          turnDir := .ccw, turnN := s.ssm.sweepAcc, rem := s.ssm.sweepAcc, stepCnt := 0
          half := BitVec.ofNat 32 (halfPeriod s.params.fclk (Preset.md s.sdu.mscode) s.sdu.speed.toNat)
          turnOrigin := .seq, state := .setup } }) ∧
      (s.ssm.sweepAcc = 0 → t = { s with
        host := { s.host with err := t.host.err, irqPend := s.host.irqPend ||| 0b0001010 }
        ssm := { s.ssm with
          rtoCnt := s.ssm.rto, failRing := s.ssm.ringIdx, seqEnd := .timeout, cancelPend := false
          state := .idle } })) ∧
    (s.ssm.rto = 0 → ∀ k, ((ssmTick false)^[k] s).ssm.state = .ringWait)

/-- 60_exceptions R448 item 2: a timeout in the SSM tick comes before a RING_DONE of the same cycle, which is
rejected. -/
def Obligations.TimeoutBeatsRingDoneOfTheSameCycle : Prop :=
  ∀ s : State, s.ssm.state = .ringWait → s.sdu.state = .idle → s.ssm.rto ≠ 0 →
    s.ssm.rto.toNat ≤ s.ssm.rtoCnt.toNat + 1 → s.nextInput.rst = false →
    s.nextInput.access = some (.write 0x004 4 0x00000034) →
    ∃ t, step s = .next t ∧ t.host.result = .notInRingWait ∧ t.ssm.seqEnd = .timeout ∧
      t.ssm.failRing = s.ssm.ringIdx ∧ t.ssm.ringIdx = s.ssm.ringIdx ∧ t.host.err.getLsbD 0 = true ∧
      t.host.err.getLsbD 1 = true

/-! ## Whole-machine rules -/

/-- 10_state R43, R45 and 60_exceptions R445: outside reset, a bit of ERR or IRQ_PEND goes from 1 to 0 only in a
cycle in which the host writes a 1 to it. -/
def Obligations.StickyBitsAreClearedOnlyByTheHost : Prop :=
  ∀ s t : State, s.nextInput.rst = false → step s = .next t →
    (∀ k, s.host.err.getLsbD k = true → t.host.err.getLsbD k = false →
      ∃ v : Word, s.nextInput.access = some (.write 0x018 4 v) ∧ v.getLsbD k = true) ∧
    (∀ k, s.host.irqPend.getLsbD k = true → t.host.irqPend.getLsbD k = false →
      ∃ v : Word, s.nextInput.access = some (.write 0x020 4 v) ∧ v.getLsbD k = true)

/-- 10_state R41, R38, R44, R46, R39, R40 and R69: outside reset, RESULT and LASTCMD change only by a CMD write,
IRQ_EN, SWPHASE, ARG0 and ARG1 only by their own write, X, Y and Z only by CTU_XFORM, and FAIL_RING only by the
timeout, whose SEQ_END the bus phase of the cycle sees (a SWEEP_START in it may clear SEQ_END, R324). -/
def Obligations.HostRegistersChangeOnlyByTheirWrites : Prop :=
  ∀ s t : State, s.nextInput.rst = false → step s = .next t →
    (t.host.result ≠ s.host.result ∨ t.host.lastcmd ≠ s.host.lastcmd →
      ∃ v, s.nextInput.access = some (.write 0x004 4 v)) ∧
    (t.host.irqEn ≠ s.host.irqEn → ∃ v, s.nextInput.access = some (.write 0x01C 4 v)) ∧
    (t.host.swphase ≠ s.host.swphase → ∃ v, s.nextInput.access = some (.write 0x024 4 v)) ∧
    (t.host.arg0 ≠ s.host.arg0 → ∃ v, s.nextInput.access = some (.write 0x008 4 v)) ∧
    (t.host.arg1 ≠ s.host.arg1 → ∃ v, s.nextInput.access = some (.write 0x00C 4 v)) ∧
    (t.ctu.x ≠ s.ctu.x ∨ t.ctu.y ≠ s.ctu.y ∨ t.ctu.z ≠ s.ctu.z →
      s.nextInput.access = some (.write 0x004 4 0x00000040)) ∧
    (t.ssm.failRing ≠ s.ssm.failRing →
      s.ssm.state = .ringWait ∧ s.ssm.rto ≠ 0 ∧ t.ssm.failRing = s.ssm.ringIdx ∧
        s.atBusPhase.ssm.seqEnd = .timeout)

/-- 10_state R80 and R31 phase 5 with 60_exceptions R445 and R446: at the end of every cycle outside reset the
lines are what the state says, and RX_READY is pending while RXQ holds 47 bytes. -/
def Obligations.LinesFollowTheStateEveryCycle : Prop :=
  ∀ s t : State, s.nextInput.rst = false → step s = .next t →
    t.lines.step = decide (t.sdu.state = .high) ∧
    t.lines.dir = decide (t.sdu.turnDir = .ccw) ∧
    t.lines.ms = (match t.sdu.mscode with
      | .full => t.params.msTable.full | .half => t.params.msTable.half | .quarter => t.params.msTable.quarter
      | .eighth => t.params.msTable.eighth | .sixteenth => t.params.msTable.sixteenth) ∧
    (t.lines.irq = true ↔ ∃ k, k < 7 ∧ t.host.irqPend.getLsbD k = true ∧ t.host.irqEn.getLsbD k = true) ∧
    (47 ≤ t.pvu.rxq.length → t.host.irqPend.getLsbD 4 = true)

/-- The invariant (42_sweep_sequencer R333 items 1 to 4, 10_state R32, R48, R57, R58, R64, R75, R80) holds after
reset. -/
def Obligations.ResetMeetsTheInvariant : Prop := Inv State.reset

/-- The same invariant is kept by every step, whatever the environment does and whatever the parameters are. -/
def Obligations.StepKeepsTheInvariant : Prop :=
  ∀ s t : State, Inv s → step s = .next t → Inv t

/-- 42_sweep_sequencer R333 item 5: throughout a sweep POS is the starting position plus the accumulated steps,
and when the reset rotation completes it is the starting position again. -/
def Obligations.SweepReturnsToItsStart : Prop :=
  ∀ (pos0 : DWord) (s t : State), Inv s → s.nextInput.rst = false → s.ssm.state ≠ .idle → posAccounted pos0 s →
    step s = .next t → posAccounted pos0 t

/-- 42_sweep_sequencer R333 items 4 and 6: the configuration is fixed while a sweep runs, and every step keeps the
account SWEEP_ACC = PREROT + SPRING·A modulo 2^64, where A, the number of completed advances, is RING_IDX, or
RING_IDX - 1 during ADVANCE, modulo 2^32 (the wraps of 10_state R32); before the pre-rotation has completed SWEEP_ACC
is 0. -/
def Obligations.SweepKeepsConfigurationAndStepAccount : Prop :=
  (∀ s t : State, s.nextInput.rst = false → s.ssm.state ≠ .idle → step s = .next t → t.ssm.state ≠ .idle →
    t.sdu.mscode = s.sdu.mscode ∧ t.sdu.speed = s.sdu.speed ∧ t.sdu.corr = s.sdu.corr ∧
    t.ssm.rings = s.ssm.rings ∧ t.ssm.prerot = s.ssm.prerot ∧ t.ssm.rto = s.ssm.rto) ∧
  (∀ s t : State, Inv s → stepsAccounted s → step s = .next t → stepsAccounted t)

/-! ## The coordinate transform -/

/-- 43_coordinate_transform R382: CTU_XFORM, with P_CTU_FN for the parameter P_CTU_EPS. -/
def Obligations.CtuXformWritesItsResults : Prop :=
  ∀ s : State, decode 0x00000040#32 = .ok .ctuXform ∧
    (¬(F64.finite s.ctu.rho = true ∧ F64.finite s.ctu.phi = true ∧ F64.finite s.ctu.theta = true ∧
      F64.finite s.ctu.offset = true) → exec .ctuXform s = .next (s.reject .ctuNonfinite)) ∧
    (F64.finite s.ctu.rho = true → F64.finite s.ctu.phi = true → F64.finite s.ctu.theta = true →
      F64.finite s.ctu.offset = true →
      exec .ctuXform s = .next { s with
        host := { s.host with result := .ok }
        ctu := { s.ctu with
          x := ctuFn s.params.ctuEps s.ctu.rho s.ctu.phi s.ctu.theta s.ctu.offset .x
          y := ctuFn s.params.ctuEps s.ctu.rho s.ctu.phi s.ctu.theta s.ctu.offset .y
          z := ctuFn s.params.ctuEps s.ctu.rho s.ctu.phi s.ctu.theta s.ctu.offset .z } })

/-- 43_coordinate_transform R381 conditions 2 and 3, for any P_CTU_EPS: where both angles are multiples of 90 degrees,
each result is the one rounding of the exact component (an integer in units of 2^-1074, the sum of the products
listed with their signs), and a zero component gives +0.0 unless every product is -0.0, where either zero is allowed
(a free value, notes/assumptions/11.md); for rho a zero the results do not depend on phi and z is a zero. -/
def Obligations.CtuMeetsItsExactnessConditions : Prop :=
  (∀ (eps : ℚ) (rho phi theta off : F64) (j k sj cj sk ck : Int),
    F64.toRat phi = 90 * (j : ℚ) → F64.toRat theta = 90 * (k : ℚ) →
    sj = quadrantSin (j % 4).toNat → cj = quadrantCos (j % 4).toNat →
    sk = quadrantSin (k % 4).toNat → ck = quadrantCos (k % 4).toNat →
    ∀ (c : CtuComp) (products : List (Int × Bool)) (v : Int),
      products = (match c with
        | .x => [(F64.scaled rho * sj * ck, Bool.xor (Bool.xor (F64.sign rho) (decide (sj < 0))) (decide (ck < 0))),
            (F64.scaled off * sk, Bool.xor (F64.sign off) (decide (sk < 0)))]
        | .y => [(F64.scaled rho * sj * sk, Bool.xor (Bool.xor (F64.sign rho) (decide (sj < 0))) (decide (sk < 0))),
            (F64.scaled off * ck, Bool.xor (F64.sign off) (decide (ck < 0)))]
        | .z => [(F64.scaled rho * cj, Bool.xor (F64.sign rho) (decide (cj < 0)))]) →
      v = (products.map Prod.fst).sum →
      (v ≠ 0 → ctuFn eps rho phi theta off c = rne64 v (2 ^ 1074)) ∧
      (v = 0 → ctuFn eps rho phi theta off c = 0x0000000000000000 ∨
        (ctuFn eps rho phi theta off c = 0x8000000000000000 ∧ ∀ p ∈ products, p.1 = 0 ∧ p.2 = true))) ∧
  (∀ (eps : ℚ) (rho phi phi' theta off : F64) (c : CtuComp), F64.isZero rho = true →
    ctuFn eps rho phi theta off c = ctuFn eps rho phi' theta off c ∧
    F64.isZero (ctuFn eps rho phi theta off .z) = true)

/-- 43_coordinate_transform R381 condition 1 with the real sine and cosine of degrees (00_scope R10), for any
P_CTU_EPS and whatever the implementation's free value is (notes/assumptions/9.md): in range every result is finite,
and it is within P_CTU_EPS · (|rho| + |off|) of XF wherever binary64 is fine enough for that bound (P_CTU_EPS at least
2^-53, and the bound 0 or at least half a smallest subnormal), and more generally wherever any finite pattern is. Where
none is, so that no result can meet condition 1, the result is a pattern nearest to XF (DESIGN CHOICE,
notes/assumptions/10.md). -/
def Obligations.CtuIsAccurateInRange : Prop :=
  ∀ (eps : ℚ) (rho phi theta off r : F64) (c : CtuComp) (p t m x : ℝ),
    F64.finite rho = true → F64.finite phi = true → F64.finite theta = true → F64.finite off = true →
    |F64.toRat rho| ≤ 2 ^ 64 → |F64.toRat off| ≤ 2 ^ 64 →
    p = (F64.toRat phi : ℝ) * Real.pi / 180 → t = (F64.toRat theta : ℝ) * Real.pi / 180 →
    m = |(F64.toRat rho : ℝ)| + |(F64.toRat off : ℝ)| →
    x = (match c with
      | .x => (F64.toRat rho : ℝ) * Real.sin p * Real.cos t + (F64.toRat off : ℝ) * Real.sin t
      | .y => (F64.toRat rho : ℝ) * Real.sin p * Real.sin t + (F64.toRat off : ℝ) * Real.cos t
      | .z => (F64.toRat rho : ℝ) * Real.cos p) →
    r = ctuFn eps rho phi theta off c →
    F64.finite r = true ∧
    (1 / 2 ^ 53 ≤ eps → (m = 0 ∨ 1 / 2 ^ 1075 ≤ (eps : ℝ) * m) → |(F64.toRat r : ℝ) - x| ≤ eps * m) ∧
    ((∃ b, F64.finite b = true ∧ |(F64.toRat b : ℝ) - x| ≤ eps * m) → |(F64.toRat r : ℝ) - x| ≤ eps * m) ∧
    ((¬∃ b, F64.finite b = true ∧ |(F64.toRat b : ℝ) - x| ≤ eps * m) →
      ∀ b, F64.finite b = true → |(F64.toRat r : ℝ) - x| ≤ |(F64.toRat b : ℝ) - x|)

end
end

