-- ==== Sys2Proof/Laws/Memory.lean ====
section
/-! SUPPORT. The laws of the byte array: a read after a write, and that every operation keeps the canonical form.
Two arrays in canonical form that read alike are equal. -/

namespace Sys2Proof.Machine

@[simp] theorem Memory.read_nil (k : Nat) : Memory.read [] k = Memory.unlisted := rfl

theorem Memory.read_cons (a : Nat) (b : Byte) (m : Memory) (k : Nat) :
    Memory.read ((a, b) :: m) k = if a = k then b else Memory.read m k := rfl

theorem Memory.wfFrom_cons {lo hi a : Nat} {b : Byte} {m : Memory} :
    Memory.wfFrom lo hi ((a, b) :: m) = true ↔
      lo ≤ a ∧ a < hi ∧ b ≠ Memory.unlisted ∧ Memory.wfFrom (a + 1) hi m = true := by
  simp [Memory.wfFrom, and_assoc]

theorem Memory.wfFrom_weaken {lo lo' hi : Nat} {m : Memory} (h : Memory.wfFrom lo hi m = true) (hl : lo' ≤ lo) :
    Memory.wfFrom lo' hi m = true := by
  cases m with
  | nil => rfl
  | cons c m =>
    obtain ⟨a, b⟩ := c
    rw [Memory.wfFrom_cons] at h ⊢
    exact ⟨by omega, h.2⟩

/-- Below the first index of a canonical array every byte is unlisted. -/
theorem Memory.read_below {lo hi k : Nat} {m : Memory} (h : Memory.wfFrom lo hi m = true) (hk : k < lo) :
    Memory.read m k = Memory.unlisted := by
  induction m generalizing lo with
  | nil => rfl
  | cons c m ih =>
    obtain ⟨a, b⟩ := c
    rw [Memory.wfFrom_cons] at h
    rw [Memory.read_cons, if_neg (by omega)]
    exact ih h.2.2.2 (by omega)

/-- From the window's end on every byte is unlisted. -/
theorem Memory.read_above {lo hi k : Nat} {m : Memory} (h : Memory.wfFrom lo hi m = true) (hk : hi ≤ k) :
    Memory.read m k = Memory.unlisted := by
  induction m generalizing lo with
  | nil => rfl
  | cons c m ih =>
    obtain ⟨a, b⟩ := c
    rw [Memory.wfFrom_cons] at h
    rw [Memory.read_cons, if_neg (by omega)]
    exact ih h.2.2.2

/-- A write keeps the canonical form. -/
theorem Memory.write_wfFrom {lo hi k : Nat} {m : Memory} (v : Byte) (h : Memory.wfFrom lo hi m = true)
    (hl : lo ≤ k) (hh : k < hi) : Memory.wfFrom lo hi (Memory.write m k v) = true := by
  induction m generalizing lo with
  | nil =>
    unfold Memory.write
    split
    · rfl
    · exact Memory.wfFrom_cons.2 ⟨hl, hh, by assumption, rfl⟩
  | cons c m ih =>
    obtain ⟨a, b⟩ := c
    have h' := Memory.wfFrom_cons.1 h
    unfold Memory.write
    split
    · split
      · exact h
      · exact Memory.wfFrom_cons.2
          ⟨hl, hh, by assumption, Memory.wfFrom_cons.2 ⟨by omega, h'.2.1, h'.2.2.1, h'.2.2.2⟩⟩
    · split
      · split
        · exact Memory.wfFrom_weaken h'.2.2.2 (by omega)
        · subst k
          exact Memory.wfFrom_cons.2 ⟨hl, hh, by assumption, h'.2.2.2⟩
      · exact Memory.wfFrom_cons.2 ⟨h'.1, h'.2.1, h'.2.2.1, ih h'.2.2.2 (by omega)⟩

theorem Memory.write_wf {m : Memory} {k : Nat} (v : Byte) (h : Memory.wf m = true) (hk : k < PKT_LEN) :
    Memory.wf (Memory.write m k v) = true := Memory.write_wfFrom v h (Nat.zero_le k) hk

/-- The byte just written reads back; needs the canonical form. -/
theorem Memory.read_write_same {lo hi k : Nat} {m : Memory} (v : Byte) (h : Memory.wfFrom lo hi m = true) :
    Memory.read (Memory.write m k v) k = v := by
  induction m generalizing lo with
  | nil =>
    unfold Memory.write
    split
    · simp [*]
    · simp [Memory.read_cons]
  | cons c m ih =>
    obtain ⟨a, b⟩ := c
    have h' := Memory.wfFrom_cons.1 h
    unfold Memory.write
    split
    · split
      · rw [Memory.read_cons, if_neg (by omega), Memory.read_below h'.2.2.2 (by omega)]
        simp [*]
      · simp [Memory.read_cons]
    · split
      · split
        · rw [Memory.read_below h'.2.2.2 (by omega)]
          simp [*]
        · simp [Memory.read_cons]
      · rw [Memory.read_cons, if_neg (by omega)]
        exact ih h'.2.2.2

/-- A write leaves every other byte alone. -/
theorem Memory.read_write_other {k j : Nat} {m : Memory} (v : Byte) (hj : j ≠ k) :
    Memory.read (Memory.write m k v) j = Memory.read m j := by
  induction m with
  | nil =>
    unfold Memory.write
    split
    · rfl
    · rw [Memory.read_cons, if_neg (fun h => hj h.symm)]
  | cons c m ih =>
    obtain ⟨a, b⟩ := c
    unfold Memory.write
    split
    · split
      · rfl
      · rw [Memory.read_cons, if_neg (fun h => hj h.symm)]
    · split
      · split
        · subst k
          rw [Memory.read_cons, if_neg (fun h => hj h.symm)]
        · rw [Memory.read_cons, Memory.read_cons, if_neg (fun h => hj h.symm), if_neg (by omega)]
      · rw [Memory.read_cons, Memory.read_cons, ih]

/-- Storing a run of bytes inside the window keeps the canonical form. -/
theorem Memory.writeBytes_wf {m : Memory} {k : Nat} {bs : List Byte} (h : Memory.wf m = true)
    (hk : k + bs.length ≤ PKT_LEN) : Memory.wf (Memory.writeBytes m k bs) = true := by
  induction bs generalizing m k with
  | nil => exact h
  | cons b bs ih =>
    simp only [List.length_cons] at hk
    exact ih (Memory.write_wf b h (by omega)) (by omega)

/-- A run of bytes leaves every byte outside it alone. -/
theorem Memory.read_writeBytes_other {m : Memory} {k j : Nat} {bs : List Byte}
    (hj : j < k ∨ k + bs.length ≤ j) : Memory.read (Memory.writeBytes m k bs) j = Memory.read m j := by
  induction bs generalizing m k with
  | nil => rfl
  | cons b bs ih =>
    simp only [List.length_cons] at hj
    unfold Memory.writeBytes
    rw [ih (by omega), Memory.read_write_other b (by omega)]

/-- Every byte of a run just stored reads back. -/
theorem Memory.read_writeBytes_same {m : Memory} {k i : Nat} {bs : List Byte} (h : Memory.wf m = true)
    (hk : k + bs.length ≤ PKT_LEN) (hi : i < bs.length) :
    Memory.read (Memory.writeBytes m k bs) (k + i) = bs[i] := by
  induction bs generalizing m k i with
  | nil => simp at hi
  | cons b bs ih =>
    simp only [List.length_cons] at hk hi
    unfold Memory.writeBytes
    cases i with
    | zero =>
      rw [Memory.read_writeBytes_other (by omega), Nat.add_zero]
      exact Memory.read_write_same b h
    | succ i =>
      have hw := Memory.write_wf b h (k := k) (by omega)
      have := ih (k := k + 1) (i := i) hw (by omega) (by omega)
      rw [show k + (i + 1) = k + 1 + i by omega, this]
      rfl

/-- Equal reads make equal arrays. -/
theorem Memory.ext_of_wfFrom {lo hi : Nat} {m m' : Memory} (h : Memory.wfFrom lo hi m = true)
    (h' : Memory.wfFrom lo hi m' = true) (hr : ∀ k, Memory.read m k = Memory.read m' k) : m = m' := by
  induction m generalizing lo m' with
  | nil =>
    cases m' with
    | nil => rfl
    | cons c m' =>
      obtain ⟨a, b⟩ := c
      have hw := Memory.wfFrom_cons.1 h'
      have hb := hr a
      rw [Memory.read_cons, if_pos rfl, Memory.read_nil] at hb
      exact absurd hb.symm hw.2.2.1
  | cons c m ih =>
    obtain ⟨a, b⟩ := c
    have hw := Memory.wfFrom_cons.1 h
    cases m' with
    | nil =>
      have hb := hr a
      rw [Memory.read_cons, if_pos rfl, Memory.read_nil] at hb
      exact absurd hb hw.2.2.1
    | cons c' m' =>
      obtain ⟨a', b'⟩ := c'
      have hw' := Memory.wfFrom_cons.1 h'
      have hlt : ¬ a < a' := fun hlt => by
        have hb := hr a
        rw [Memory.read_cons, if_pos rfl, Memory.read_cons,
          if_neg (by omega), Memory.read_below hw'.2.2.2 (by omega)] at hb
        exact hw.2.2.1 hb
      have hgt : ¬ a' < a := fun hgt => by
        have hb := hr a'
        rw [Memory.read_cons, if_neg (by omega), Memory.read_below hw.2.2.2 (by omega), Memory.read_cons,
          if_pos rfl] at hb
        exact hw'.2.2.1 hb.symm
      have ha : a = a' := by omega
      subst ha
      have hb : b = b' := by
        have := hr a
        rwa [Memory.read_cons, if_pos rfl, Memory.read_cons, if_pos rfl] at this
      subst hb
      have hm : m = m' := ih hw.2.2.2 hw'.2.2.2 fun k => by
        have := hr k
        rw [Memory.read_cons, Memory.read_cons] at this
        by_cases hk : a = k
        · rw [Memory.read_below hw.2.2.2 (by omega), Memory.read_below hw'.2.2.2 (by omega)]
        · rwa [if_neg hk, if_neg hk] at this
      rw [hm]

/-- The bytes PKT_READ stores are exactly 47. -/
@[simp] theorem padPacket_length (bs : List Byte) : (padPacket bs).length = PKT_LEN := by simp [padPacket]

/-- What PKT_READ stores keeps the canonical form. -/
theorem writePacket_wf {m : Memory} (bs : List Byte) (h : Memory.wf m = true) :
    Memory.wf (Memory.writeBytes m 0 (padPacket bs)) = true :=
  Memory.writeBytes_wf h (by simp)

/-- A host write to a window word keeps the canonical form. -/
theorem writePktbuf_wf (k : Fin 12) (v : Word) (s : State) (h : Memory.wf s.pvu.pktbuf = true) :
    Memory.wf (writePktbuf k v s).pvu.pktbuf = true :=
  Memory.writeBytes_wf h (by
    have hk := k.isLt
    simp only [wordBytes, List.length_take, List.length_cons, List.length_nil, PKT_LEN]
    omega)

end Sys2Proof.Machine
end

