-- ==== Sys2Proof/Laws/PerInstr.lean ====
section
/-! SUPPORT. The statements made per command: a family's `Statement` and one lemma per constructor. -/

namespace Sys2Proof.Laws.UnitNibble

/-- 30_encoding R151 and R156: a command's word has a zero MBZ field, its high nibble of OPC is its unit's number,
and the word is well formed. -/
def Statement (i : Instr) : Prop :=
  (encode i).toNat / 256 = 0 ∧ (encode i).toNat / 16 = Machine.Instr.unitNibble i ∧
    commandWordWellFormed (encode i) = true

theorem nop : Statement .nop := by unfold Statement; decide
theorem pktRead : Statement .pktRead := by unfold Statement; decide
theorem pktCheck : Statement .pktCheck := by unfold Statement; decide
theorem setRes : Statement .setRes := by unfold Statement; decide
theorem setSpeed : Statement .setSpeed := by unfold Statement; decide
theorem setCorr : Statement .setCorr := by unfold Statement; decide
theorem turn : Statement .turn := by unfold Statement; decide
theorem setRings : Statement .setRings := by unfold Statement; decide
theorem setPrerot : Statement .setPrerot := by unfold Statement; decide
theorem setRto : Statement .setRto := by unfold Statement; decide
theorem sweepStart : Statement .sweepStart := by unfold Statement; decide
theorem ringDone : Statement .ringDone := by unfold Statement; decide
theorem sweepCancel : Statement .sweepCancel := by unfold Statement; decide
theorem ctuXform : Statement .ctuXform := by unfold Statement; decide

end Sys2Proof.Laws.UnitNibble
end

