-- ==== Sys2Proof/Laws/State.lean ====
section
/-! SUPPORT. One lemma per field per update: what each named update of State leaves in each field. -/

namespace Sys2Proof.Machine

/-! ### pend -/

@[simp] theorem State.pend_host_lastcmd (src : IrqSource) (s : State) :
    (s.pend src).host.lastcmd = s.host.lastcmd := rfl
@[simp] theorem State.pend_host_arg0 (src : IrqSource) (s : State) : (s.pend src).host.arg0 = s.host.arg0 := rfl
@[simp] theorem State.pend_host_arg1 (src : IrqSource) (s : State) : (s.pend src).host.arg1 = s.host.arg1 := rfl
@[simp] theorem State.pend_host_result (src : IrqSource) (s : State) : (s.pend src).host.result = s.host.result := rfl
@[simp] theorem State.pend_host_err (src : IrqSource) (s : State) : (s.pend src).host.err = s.host.err := rfl
@[simp] theorem State.pend_host_irqEn (src : IrqSource) (s : State) : (s.pend src).host.irqEn = s.host.irqEn := rfl
@[simp] theorem State.pend_host_irqPend (src : IrqSource) (s : State) :
    (s.pend src).host.irqPend = s.host.irqPend ||| src.bit := rfl
@[simp] theorem State.pend_host_swphase (src : IrqSource) (s : State) :
    (s.pend src).host.swphase = s.host.swphase := rfl
@[simp] theorem State.pend_pvu (src : IrqSource) (s : State) : (s.pend src).pvu = s.pvu := rfl
@[simp] theorem State.pend_sdu (src : IrqSource) (s : State) : (s.pend src).sdu = s.sdu := rfl
@[simp] theorem State.pend_ssm (src : IrqSource) (s : State) : (s.pend src).ssm = s.ssm := rfl
@[simp] theorem State.pend_ctu (src : IrqSource) (s : State) : (s.pend src).ctu = s.ctu := rfl
@[simp] theorem State.pend_lines (src : IrqSource) (s : State) : (s.pend src).lines = s.lines := rfl
@[simp] theorem State.pend_params (src : IrqSource) (s : State) : (s.pend src).params = s.params := rfl
@[simp] theorem State.pend_inputs (src : IrqSource) (s : State) : (s.pend src).inputs = s.inputs := rfl
@[simp] theorem State.pend_readData (src : IrqSource) (s : State) : (s.pend src).readData = s.readData := rfl

/-! ### setErr -/

@[simp] theorem State.setErr_host_lastcmd (e : ErrBit) (s : State) : (s.setErr e).host.lastcmd = s.host.lastcmd := rfl
@[simp] theorem State.setErr_host_arg0 (e : ErrBit) (s : State) : (s.setErr e).host.arg0 = s.host.arg0 := rfl
@[simp] theorem State.setErr_host_arg1 (e : ErrBit) (s : State) : (s.setErr e).host.arg1 = s.host.arg1 := rfl
@[simp] theorem State.setErr_host_result (e : ErrBit) (s : State) : (s.setErr e).host.result = s.host.result := rfl
@[simp] theorem State.setErr_host_err (e : ErrBit) (s : State) : (s.setErr e).host.err = s.host.err ||| e.bit := rfl
@[simp] theorem State.setErr_host_irqEn (e : ErrBit) (s : State) : (s.setErr e).host.irqEn = s.host.irqEn := rfl
@[simp] theorem State.setErr_host_irqPend (e : ErrBit) (s : State) : (s.setErr e).host.irqPend = s.host.irqPend := rfl
@[simp] theorem State.setErr_host_swphase (e : ErrBit) (s : State) : (s.setErr e).host.swphase = s.host.swphase := rfl
@[simp] theorem State.setErr_pvu (e : ErrBit) (s : State) : (s.setErr e).pvu = s.pvu := rfl
@[simp] theorem State.setErr_sdu (e : ErrBit) (s : State) : (s.setErr e).sdu = s.sdu := rfl
@[simp] theorem State.setErr_ssm (e : ErrBit) (s : State) : (s.setErr e).ssm = s.ssm := rfl
@[simp] theorem State.setErr_ctu (e : ErrBit) (s : State) : (s.setErr e).ctu = s.ctu := rfl
@[simp] theorem State.setErr_lines (e : ErrBit) (s : State) : (s.setErr e).lines = s.lines := rfl
@[simp] theorem State.setErr_params (e : ErrBit) (s : State) : (s.setErr e).params = s.params := rfl
@[simp] theorem State.setErr_inputs (e : ErrBit) (s : State) : (s.setErr e).inputs = s.inputs := rfl
@[simp] theorem State.setErr_readData (e : ErrBit) (s : State) : (s.setErr e).readData = s.readData := rfl

/-! ### complete -/

@[simp] theorem State.complete_host_lastcmd (c : ResultCode) (s : State) :
    (s.complete c).host.lastcmd = s.host.lastcmd := rfl
@[simp] theorem State.complete_host_arg0 (c : ResultCode) (s : State) : (s.complete c).host.arg0 = s.host.arg0 := rfl
@[simp] theorem State.complete_host_arg1 (c : ResultCode) (s : State) : (s.complete c).host.arg1 = s.host.arg1 := rfl
@[simp] theorem State.complete_host_result (c : ResultCode) (s : State) : (s.complete c).host.result = c := rfl
@[simp] theorem State.complete_host_err (c : ResultCode) (s : State) : (s.complete c).host.err = s.host.err := rfl
@[simp] theorem State.complete_host_irqEn (c : ResultCode) (s : State) :
    (s.complete c).host.irqEn = s.host.irqEn := rfl
@[simp] theorem State.complete_host_irqPend (c : ResultCode) (s : State) :
    (s.complete c).host.irqPend = s.host.irqPend := rfl
@[simp] theorem State.complete_host_swphase (c : ResultCode) (s : State) :
    (s.complete c).host.swphase = s.host.swphase := rfl
@[simp] theorem State.complete_pvu (c : ResultCode) (s : State) : (s.complete c).pvu = s.pvu := rfl
@[simp] theorem State.complete_sdu (c : ResultCode) (s : State) : (s.complete c).sdu = s.sdu := rfl
@[simp] theorem State.complete_ssm (c : ResultCode) (s : State) : (s.complete c).ssm = s.ssm := rfl
@[simp] theorem State.complete_ctu (c : ResultCode) (s : State) : (s.complete c).ctu = s.ctu := rfl
@[simp] theorem State.complete_lines (c : ResultCode) (s : State) : (s.complete c).lines = s.lines := rfl
@[simp] theorem State.complete_params (c : ResultCode) (s : State) : (s.complete c).params = s.params := rfl
@[simp] theorem State.complete_inputs (c : ResultCode) (s : State) : (s.complete c).inputs = s.inputs := rfl
@[simp] theorem State.complete_readData (c : ResultCode) (s : State) : (s.complete c).readData = s.readData := rfl

/-! ### reject -/

@[simp] theorem State.reject_host_lastcmd (c : ResultCode) (s : State) :
    (s.reject c).host.lastcmd = s.host.lastcmd := rfl
@[simp] theorem State.reject_host_arg0 (c : ResultCode) (s : State) : (s.reject c).host.arg0 = s.host.arg0 := rfl
@[simp] theorem State.reject_host_arg1 (c : ResultCode) (s : State) : (s.reject c).host.arg1 = s.host.arg1 := rfl
@[simp] theorem State.reject_host_result (c : ResultCode) (s : State) : (s.reject c).host.result = c := rfl
@[simp] theorem State.reject_host_err (c : ResultCode) (s : State) :
    (s.reject c).host.err = s.host.err ||| ErrBit.bit .cmdReject := rfl
@[simp] theorem State.reject_host_irqEn (c : ResultCode) (s : State) : (s.reject c).host.irqEn = s.host.irqEn := rfl
@[simp] theorem State.reject_host_irqPend (c : ResultCode) (s : State) :
    (s.reject c).host.irqPend = s.host.irqPend ||| IrqSource.bit .cmdReject := rfl
@[simp] theorem State.reject_host_swphase (c : ResultCode) (s : State) :
    (s.reject c).host.swphase = s.host.swphase := rfl
@[simp] theorem State.reject_pvu (c : ResultCode) (s : State) : (s.reject c).pvu = s.pvu := rfl
@[simp] theorem State.reject_sdu (c : ResultCode) (s : State) : (s.reject c).sdu = s.sdu := rfl
@[simp] theorem State.reject_ssm (c : ResultCode) (s : State) : (s.reject c).ssm = s.ssm := rfl
@[simp] theorem State.reject_ctu (c : ResultCode) (s : State) : (s.reject c).ctu = s.ctu := rfl
@[simp] theorem State.reject_lines (c : ResultCode) (s : State) : (s.reject c).lines = s.lines := rfl
@[simp] theorem State.reject_params (c : ResultCode) (s : State) : (s.reject c).params = s.params := rfl
@[simp] theorem State.reject_inputs (c : ResultCode) (s : State) : (s.reject c).inputs = s.inputs := rfl
@[simp] theorem State.reject_readData (c : ResultCode) (s : State) : (s.reject c).readData = s.readData := rfl

/-! ### startTurn -/

@[simp] theorem State.startTurn_host (d : Dir) (n : DWord) (o : Origin) (s : State) :
    (s.startTurn d n o).host = s.host := rfl
@[simp] theorem State.startTurn_pvu (d : Dir) (n : DWord) (o : Origin) (s : State) :
    (s.startTurn d n o).pvu = s.pvu := rfl
@[simp] theorem State.startTurn_sdu_mscode (d : Dir) (n : DWord) (o : Origin) (s : State) :
    (s.startTurn d n o).sdu.mscode = s.sdu.mscode := rfl
@[simp] theorem State.startTurn_sdu_speed (d : Dir) (n : DWord) (o : Origin) (s : State) :
    (s.startTurn d n o).sdu.speed = s.sdu.speed := rfl
@[simp] theorem State.startTurn_sdu_corr (d : Dir) (n : DWord) (o : Origin) (s : State) :
    (s.startTurn d n o).sdu.corr = s.sdu.corr := rfl
@[simp] theorem State.startTurn_sdu_pos (d : Dir) (n : DWord) (o : Origin) (s : State) :
    (s.startTurn d n o).sdu.pos = s.sdu.pos := rfl
@[simp] theorem State.startTurn_sdu_stepCnt (d : Dir) (n : DWord) (o : Origin) (s : State) :
    (s.startTurn d n o).sdu.stepCnt = 0 := rfl
@[simp] theorem State.startTurn_sdu_half (d : Dir) (n : DWord) (o : Origin) (s : State) :
    (s.startTurn d n o).sdu.half =
      BitVec.ofNat 32 (halfPeriod s.params.fclk (Preset.md s.sdu.mscode) s.sdu.speed.toNat) := rfl
@[simp] theorem State.startTurn_sdu_turnN (d : Dir) (n : DWord) (o : Origin) (s : State) :
    (s.startTurn d n o).sdu.turnN = n := rfl
@[simp] theorem State.startTurn_sdu_state (d : Dir) (n : DWord) (o : Origin) (s : State) :
    (s.startTurn d n o).sdu.state = .setup := rfl
@[simp] theorem State.startTurn_sdu_phCnt (d : Dir) (n : DWord) (o : Origin) (s : State) :
    (s.startTurn d n o).sdu.phCnt = s.sdu.phCnt := rfl
@[simp] theorem State.startTurn_sdu_rem (d : Dir) (n : DWord) (o : Origin) (s : State) :
    (s.startTurn d n o).sdu.rem = n := rfl
@[simp] theorem State.startTurn_sdu_turnDir (d : Dir) (n : DWord) (o : Origin) (s : State) :
    (s.startTurn d n o).sdu.turnDir = d := rfl
@[simp] theorem State.startTurn_sdu_turnOrigin (d : Dir) (n : DWord) (o : Origin) (s : State) :
    (s.startTurn d n o).sdu.turnOrigin = o := rfl
@[simp] theorem State.startTurn_ssm (d : Dir) (n : DWord) (o : Origin) (s : State) :
    (s.startTurn d n o).ssm = s.ssm := rfl
@[simp] theorem State.startTurn_ctu (d : Dir) (n : DWord) (o : Origin) (s : State) :
    (s.startTurn d n o).ctu = s.ctu := rfl
@[simp] theorem State.startTurn_lines (d : Dir) (n : DWord) (o : Origin) (s : State) :
    (s.startTurn d n o).lines = s.lines := rfl
@[simp] theorem State.startTurn_params (d : Dir) (n : DWord) (o : Origin) (s : State) :
    (s.startTurn d n o).params = s.params := rfl
@[simp] theorem State.startTurn_inputs (d : Dir) (n : DWord) (o : Origin) (s : State) :
    (s.startTurn d n o).inputs = s.inputs := rfl
@[simp] theorem State.startTurn_readData (d : Dir) (n : DWord) (o : Origin) (s : State) :
    (s.startTurn d n o).readData = s.readData := rfl

/-! ### setSeqState -/

@[simp] theorem State.setSeqState_host (q : SeqState) (s : State) : (s.setSeqState q).host = s.host := rfl
@[simp] theorem State.setSeqState_pvu (q : SeqState) (s : State) : (s.setSeqState q).pvu = s.pvu := rfl
@[simp] theorem State.setSeqState_sdu (q : SeqState) (s : State) : (s.setSeqState q).sdu = s.sdu := rfl
@[simp] theorem State.setSeqState_ssm_rings (q : SeqState) (s : State) :
    (s.setSeqState q).ssm.rings = s.ssm.rings := rfl
@[simp] theorem State.setSeqState_ssm_prerot (q : SeqState) (s : State) :
    (s.setSeqState q).ssm.prerot = s.ssm.prerot := rfl
@[simp] theorem State.setSeqState_ssm_rto (q : SeqState) (s : State) : (s.setSeqState q).ssm.rto = s.ssm.rto := rfl
@[simp] theorem State.setSeqState_ssm_spring (q : SeqState) (s : State) :
    (s.setSeqState q).ssm.spring = s.ssm.spring := rfl
@[simp] theorem State.setSeqState_ssm_ringIdx (q : SeqState) (s : State) :
    (s.setSeqState q).ssm.ringIdx = s.ssm.ringIdx := rfl
@[simp] theorem State.setSeqState_ssm_failRing (q : SeqState) (s : State) :
    (s.setSeqState q).ssm.failRing = s.ssm.failRing := rfl
@[simp] theorem State.setSeqState_ssm_sweepAcc (q : SeqState) (s : State) :
    (s.setSeqState q).ssm.sweepAcc = s.ssm.sweepAcc := rfl
@[simp] theorem State.setSeqState_ssm_state (q : SeqState) (s : State) : (s.setSeqState q).ssm.state = q := rfl
@[simp] theorem State.setSeqState_ssm_cancelPend (q : SeqState) (s : State) :
    (s.setSeqState q).ssm.cancelPend = s.ssm.cancelPend := rfl
@[simp] theorem State.setSeqState_ssm_rtoCnt (q : SeqState) (s : State) :
    (s.setSeqState q).ssm.rtoCnt = s.ssm.rtoCnt := rfl
@[simp] theorem State.setSeqState_ssm_seqEnd (q : SeqState) (s : State) :
    (s.setSeqState q).ssm.seqEnd = s.ssm.seqEnd := rfl
@[simp] theorem State.setSeqState_ctu (q : SeqState) (s : State) : (s.setSeqState q).ctu = s.ctu := rfl
@[simp] theorem State.setSeqState_lines (q : SeqState) (s : State) : (s.setSeqState q).lines = s.lines := rfl
@[simp] theorem State.setSeqState_params (q : SeqState) (s : State) : (s.setSeqState q).params = s.params := rfl
@[simp] theorem State.setSeqState_inputs (q : SeqState) (s : State) : (s.setSeqState q).inputs = s.inputs := rfl
@[simp] theorem State.setSeqState_readData (q : SeqState) (s : State) : (s.setSeqState q).readData = s.readData := rfl

/-! ### endSweep -/

@[simp] theorem State.endSweep_host (c : SeqEnd) (s : State) : (s.endSweep c).host = s.host := rfl
@[simp] theorem State.endSweep_pvu (c : SeqEnd) (s : State) : (s.endSweep c).pvu = s.pvu := rfl
@[simp] theorem State.endSweep_sdu (c : SeqEnd) (s : State) : (s.endSweep c).sdu = s.sdu := rfl
@[simp] theorem State.endSweep_ssm_rings (c : SeqEnd) (s : State) : (s.endSweep c).ssm.rings = s.ssm.rings := rfl
@[simp] theorem State.endSweep_ssm_prerot (c : SeqEnd) (s : State) : (s.endSweep c).ssm.prerot = s.ssm.prerot := rfl
@[simp] theorem State.endSweep_ssm_rto (c : SeqEnd) (s : State) : (s.endSweep c).ssm.rto = s.ssm.rto := rfl
@[simp] theorem State.endSweep_ssm_spring (c : SeqEnd) (s : State) : (s.endSweep c).ssm.spring = s.ssm.spring := rfl
@[simp] theorem State.endSweep_ssm_ringIdx (c : SeqEnd) (s : State) :
    (s.endSweep c).ssm.ringIdx = s.ssm.ringIdx := rfl
@[simp] theorem State.endSweep_ssm_failRing (c : SeqEnd) (s : State) :
    (s.endSweep c).ssm.failRing = s.ssm.failRing := rfl
@[simp] theorem State.endSweep_ssm_sweepAcc (c : SeqEnd) (s : State) :
    (s.endSweep c).ssm.sweepAcc = s.ssm.sweepAcc := rfl
@[simp] theorem State.endSweep_ssm_state (c : SeqEnd) (s : State) : (s.endSweep c).ssm.state = s.ssm.state := rfl
@[simp] theorem State.endSweep_ssm_cancelPend (c : SeqEnd) (s : State) : (s.endSweep c).ssm.cancelPend = false := rfl
@[simp] theorem State.endSweep_ssm_rtoCnt (c : SeqEnd) (s : State) : (s.endSweep c).ssm.rtoCnt = s.ssm.rtoCnt := rfl
@[simp] theorem State.endSweep_ssm_seqEnd (c : SeqEnd) (s : State) : (s.endSweep c).ssm.seqEnd = c := rfl
@[simp] theorem State.endSweep_ctu (c : SeqEnd) (s : State) : (s.endSweep c).ctu = s.ctu := rfl
@[simp] theorem State.endSweep_lines (c : SeqEnd) (s : State) : (s.endSweep c).lines = s.lines := rfl
@[simp] theorem State.endSweep_params (c : SeqEnd) (s : State) : (s.endSweep c).params = s.params := rfl
@[simp] theorem State.endSweep_inputs (c : SeqEnd) (s : State) : (s.endSweep c).inputs = s.inputs := rfl
@[simp] theorem State.endSweep_readData (c : SeqEnd) (s : State) : (s.endSweep c).readData = s.readData := rfl

/-! ### addSweep -/

@[simp] theorem State.addSweep_host (n : DWord) (s : State) : (s.addSweep n).host = s.host := rfl
@[simp] theorem State.addSweep_pvu (n : DWord) (s : State) : (s.addSweep n).pvu = s.pvu := rfl
@[simp] theorem State.addSweep_sdu (n : DWord) (s : State) : (s.addSweep n).sdu = s.sdu := rfl
@[simp] theorem State.addSweep_ssm_rings (n : DWord) (s : State) : (s.addSweep n).ssm.rings = s.ssm.rings := rfl
@[simp] theorem State.addSweep_ssm_prerot (n : DWord) (s : State) : (s.addSweep n).ssm.prerot = s.ssm.prerot := rfl
@[simp] theorem State.addSweep_ssm_rto (n : DWord) (s : State) : (s.addSweep n).ssm.rto = s.ssm.rto := rfl
@[simp] theorem State.addSweep_ssm_spring (n : DWord) (s : State) : (s.addSweep n).ssm.spring = s.ssm.spring := rfl
@[simp] theorem State.addSweep_ssm_ringIdx (n : DWord) (s : State) : (s.addSweep n).ssm.ringIdx = s.ssm.ringIdx := rfl
@[simp] theorem State.addSweep_ssm_failRing (n : DWord) (s : State) :
    (s.addSweep n).ssm.failRing = s.ssm.failRing := rfl
@[simp] theorem State.addSweep_ssm_sweepAcc (n : DWord) (s : State) :
    (s.addSweep n).ssm.sweepAcc = s.ssm.sweepAcc + n := rfl
@[simp] theorem State.addSweep_ssm_state (n : DWord) (s : State) : (s.addSweep n).ssm.state = s.ssm.state := rfl
@[simp] theorem State.addSweep_ssm_cancelPend (n : DWord) (s : State) :
    (s.addSweep n).ssm.cancelPend = s.ssm.cancelPend := rfl
@[simp] theorem State.addSweep_ssm_rtoCnt (n : DWord) (s : State) : (s.addSweep n).ssm.rtoCnt = s.ssm.rtoCnt := rfl
@[simp] theorem State.addSweep_ssm_seqEnd (n : DWord) (s : State) : (s.addSweep n).ssm.seqEnd = s.ssm.seqEnd := rfl
@[simp] theorem State.addSweep_ctu (n : DWord) (s : State) : (s.addSweep n).ctu = s.ctu := rfl
@[simp] theorem State.addSweep_lines (n : DWord) (s : State) : (s.addSweep n).lines = s.lines := rfl
@[simp] theorem State.addSweep_params (n : DWord) (s : State) : (s.addSweep n).params = s.params := rfl
@[simp] theorem State.addSweep_inputs (n : DWord) (s : State) : (s.addSweep n).inputs = s.inputs := rfl
@[simp] theorem State.addSweep_readData (n : DWord) (s : State) : (s.addSweep n).readData = s.readData := rfl

/-! ### enterRingWait -/

@[simp] theorem State.enterRingWait_host_lastcmd (s : State) : s.enterRingWait.host.lastcmd = s.host.lastcmd := rfl
@[simp] theorem State.enterRingWait_host_arg0 (s : State) : s.enterRingWait.host.arg0 = s.host.arg0 := rfl
@[simp] theorem State.enterRingWait_host_arg1 (s : State) : s.enterRingWait.host.arg1 = s.host.arg1 := rfl
@[simp] theorem State.enterRingWait_host_result (s : State) : s.enterRingWait.host.result = s.host.result := rfl
@[simp] theorem State.enterRingWait_host_err (s : State) : s.enterRingWait.host.err = s.host.err := rfl
@[simp] theorem State.enterRingWait_host_irqEn (s : State) : s.enterRingWait.host.irqEn = s.host.irqEn := rfl
@[simp] theorem State.enterRingWait_host_irqPend (s : State) :
    s.enterRingWait.host.irqPend = s.host.irqPend ||| IrqSource.bit .ringReq := rfl
@[simp] theorem State.enterRingWait_host_swphase (s : State) : s.enterRingWait.host.swphase = s.host.swphase := rfl
@[simp] theorem State.enterRingWait_pvu (s : State) : s.enterRingWait.pvu = s.pvu := rfl
@[simp] theorem State.enterRingWait_sdu (s : State) : s.enterRingWait.sdu = s.sdu := rfl
@[simp] theorem State.enterRingWait_ssm_rings (s : State) : s.enterRingWait.ssm.rings = s.ssm.rings := rfl
@[simp] theorem State.enterRingWait_ssm_prerot (s : State) : s.enterRingWait.ssm.prerot = s.ssm.prerot := rfl
@[simp] theorem State.enterRingWait_ssm_rto (s : State) : s.enterRingWait.ssm.rto = s.ssm.rto := rfl
@[simp] theorem State.enterRingWait_ssm_spring (s : State) : s.enterRingWait.ssm.spring = s.ssm.spring := rfl
@[simp] theorem State.enterRingWait_ssm_ringIdx (s : State) : s.enterRingWait.ssm.ringIdx = s.ssm.ringIdx := rfl
@[simp] theorem State.enterRingWait_ssm_failRing (s : State) : s.enterRingWait.ssm.failRing = s.ssm.failRing := rfl
@[simp] theorem State.enterRingWait_ssm_sweepAcc (s : State) : s.enterRingWait.ssm.sweepAcc = s.ssm.sweepAcc := rfl
@[simp] theorem State.enterRingWait_ssm_state (s : State) : s.enterRingWait.ssm.state = .ringWait := rfl
@[simp] theorem State.enterRingWait_ssm_cancelPend (s : State) :
    s.enterRingWait.ssm.cancelPend = s.ssm.cancelPend := rfl
@[simp] theorem State.enterRingWait_ssm_rtoCnt (s : State) : s.enterRingWait.ssm.rtoCnt = 0 := rfl
@[simp] theorem State.enterRingWait_ssm_seqEnd (s : State) : s.enterRingWait.ssm.seqEnd = s.ssm.seqEnd := rfl
@[simp] theorem State.enterRingWait_ctu (s : State) : s.enterRingWait.ctu = s.ctu := rfl
@[simp] theorem State.enterRingWait_lines (s : State) : s.enterRingWait.lines = s.lines := rfl
@[simp] theorem State.enterRingWait_params (s : State) : s.enterRingWait.params = s.params := rfl
@[simp] theorem State.enterRingWait_inputs (s : State) : s.enterRingWait.inputs = s.inputs := rfl
@[simp] theorem State.enterRingWait_readData (s : State) : s.enterRingWait.readData = s.readData := rfl

/-! ### countRing -/

@[simp] theorem State.countRing_host (s : State) : s.countRing.host = s.host := rfl
@[simp] theorem State.countRing_pvu (s : State) : s.countRing.pvu = s.pvu := rfl
@[simp] theorem State.countRing_sdu (s : State) : s.countRing.sdu = s.sdu := rfl
@[simp] theorem State.countRing_ssm_rings (s : State) : s.countRing.ssm.rings = s.ssm.rings := rfl
@[simp] theorem State.countRing_ssm_prerot (s : State) : s.countRing.ssm.prerot = s.ssm.prerot := rfl
@[simp] theorem State.countRing_ssm_rto (s : State) : s.countRing.ssm.rto = s.ssm.rto := rfl
@[simp] theorem State.countRing_ssm_spring (s : State) : s.countRing.ssm.spring = s.ssm.spring := rfl
@[simp] theorem State.countRing_ssm_ringIdx (s : State) : s.countRing.ssm.ringIdx = s.ssm.ringIdx + 1 := rfl
@[simp] theorem State.countRing_ssm_failRing (s : State) : s.countRing.ssm.failRing = s.ssm.failRing := rfl
@[simp] theorem State.countRing_ssm_sweepAcc (s : State) : s.countRing.ssm.sweepAcc = s.ssm.sweepAcc := rfl
@[simp] theorem State.countRing_ssm_state (s : State) : s.countRing.ssm.state = s.ssm.state := rfl
@[simp] theorem State.countRing_ssm_cancelPend (s : State) : s.countRing.ssm.cancelPend = s.ssm.cancelPend := rfl
@[simp] theorem State.countRing_ssm_rtoCnt (s : State) : s.countRing.ssm.rtoCnt = s.ssm.rtoCnt := rfl
@[simp] theorem State.countRing_ssm_seqEnd (s : State) : s.countRing.ssm.seqEnd = s.ssm.seqEnd := rfl
@[simp] theorem State.countRing_ctu (s : State) : s.countRing.ctu = s.ctu := rfl
@[simp] theorem State.countRing_lines (s : State) : s.countRing.lines = s.lines := rfl
@[simp] theorem State.countRing_params (s : State) : s.countRing.params = s.params := rfl
@[simp] theorem State.countRing_inputs (s : State) : s.countRing.inputs = s.inputs := rfl
@[simp] theorem State.countRing_readData (s : State) : s.countRing.readData = s.readData := rfl

/-! ### requestCancel -/

@[simp] theorem State.requestCancel_host (s : State) : s.requestCancel.host = s.host := rfl
@[simp] theorem State.requestCancel_pvu (s : State) : s.requestCancel.pvu = s.pvu := rfl
@[simp] theorem State.requestCancel_sdu (s : State) : s.requestCancel.sdu = s.sdu := rfl
@[simp] theorem State.requestCancel_ssm_rings (s : State) : s.requestCancel.ssm.rings = s.ssm.rings := rfl
@[simp] theorem State.requestCancel_ssm_prerot (s : State) : s.requestCancel.ssm.prerot = s.ssm.prerot := rfl
@[simp] theorem State.requestCancel_ssm_rto (s : State) : s.requestCancel.ssm.rto = s.ssm.rto := rfl
@[simp] theorem State.requestCancel_ssm_spring (s : State) : s.requestCancel.ssm.spring = s.ssm.spring := rfl
@[simp] theorem State.requestCancel_ssm_ringIdx (s : State) : s.requestCancel.ssm.ringIdx = s.ssm.ringIdx := rfl
@[simp] theorem State.requestCancel_ssm_failRing (s : State) : s.requestCancel.ssm.failRing = s.ssm.failRing := rfl
@[simp] theorem State.requestCancel_ssm_sweepAcc (s : State) : s.requestCancel.ssm.sweepAcc = s.ssm.sweepAcc := rfl
@[simp] theorem State.requestCancel_ssm_state (s : State) : s.requestCancel.ssm.state = s.ssm.state := rfl
@[simp] theorem State.requestCancel_ssm_cancelPend (s : State) : s.requestCancel.ssm.cancelPend = true := rfl
@[simp] theorem State.requestCancel_ssm_rtoCnt (s : State) : s.requestCancel.ssm.rtoCnt = s.ssm.rtoCnt := rfl
@[simp] theorem State.requestCancel_ssm_seqEnd (s : State) : s.requestCancel.ssm.seqEnd = s.ssm.seqEnd := rfl
@[simp] theorem State.requestCancel_ctu (s : State) : s.requestCancel.ctu = s.ctu := rfl
@[simp] theorem State.requestCancel_lines (s : State) : s.requestCancel.lines = s.lines := rfl
@[simp] theorem State.requestCancel_params (s : State) : s.requestCancel.params = s.params := rfl
@[simp] theorem State.requestCancel_inputs (s : State) : s.requestCancel.inputs = s.inputs := rfl
@[simp] theorem State.requestCancel_readData (s : State) : s.requestCancel.readData = s.readData := rfl

/-! ### countRto -/

@[simp] theorem State.countRto_host (s : State) : s.countRto.host = s.host := rfl
@[simp] theorem State.countRto_pvu (s : State) : s.countRto.pvu = s.pvu := rfl
@[simp] theorem State.countRto_sdu (s : State) : s.countRto.sdu = s.sdu := rfl
@[simp] theorem State.countRto_ssm_rings (s : State) : s.countRto.ssm.rings = s.ssm.rings := rfl
@[simp] theorem State.countRto_ssm_prerot (s : State) : s.countRto.ssm.prerot = s.ssm.prerot := rfl
@[simp] theorem State.countRto_ssm_rto (s : State) : s.countRto.ssm.rto = s.ssm.rto := rfl
@[simp] theorem State.countRto_ssm_spring (s : State) : s.countRto.ssm.spring = s.ssm.spring := rfl
@[simp] theorem State.countRto_ssm_ringIdx (s : State) : s.countRto.ssm.ringIdx = s.ssm.ringIdx := rfl
@[simp] theorem State.countRto_ssm_failRing (s : State) : s.countRto.ssm.failRing = s.ssm.failRing := rfl
@[simp] theorem State.countRto_ssm_sweepAcc (s : State) : s.countRto.ssm.sweepAcc = s.ssm.sweepAcc := rfl
@[simp] theorem State.countRto_ssm_state (s : State) : s.countRto.ssm.state = s.ssm.state := rfl
@[simp] theorem State.countRto_ssm_cancelPend (s : State) : s.countRto.ssm.cancelPend = s.ssm.cancelPend := rfl
@[simp] theorem State.countRto_ssm_rtoCnt (s : State) : s.countRto.ssm.rtoCnt = rtoCount s.ssm.rtoCnt := rfl
@[simp] theorem State.countRto_ssm_seqEnd (s : State) : s.countRto.ssm.seqEnd = s.ssm.seqEnd := rfl
@[simp] theorem State.countRto_ctu (s : State) : s.countRto.ctu = s.ctu := rfl
@[simp] theorem State.countRto_lines (s : State) : s.countRto.lines = s.lines := rfl
@[simp] theorem State.countRto_params (s : State) : s.countRto.params = s.params := rfl
@[simp] theorem State.countRto_inputs (s : State) : s.countRto.inputs = s.inputs := rfl
@[simp] theorem State.countRto_readData (s : State) : s.countRto.readData = s.readData := rfl

/-! ### recordTimeout -/

@[simp] theorem State.recordTimeout_host_lastcmd (s : State) : s.recordTimeout.host.lastcmd = s.host.lastcmd := rfl
@[simp] theorem State.recordTimeout_host_arg0 (s : State) : s.recordTimeout.host.arg0 = s.host.arg0 := rfl
@[simp] theorem State.recordTimeout_host_arg1 (s : State) : s.recordTimeout.host.arg1 = s.host.arg1 := rfl
@[simp] theorem State.recordTimeout_host_result (s : State) : s.recordTimeout.host.result = s.host.result := rfl
@[simp] theorem State.recordTimeout_host_err (s : State) :
    s.recordTimeout.host.err = s.host.err ||| ErrBit.bit .ringTimeout := rfl
@[simp] theorem State.recordTimeout_host_irqEn (s : State) : s.recordTimeout.host.irqEn = s.host.irqEn := rfl
@[simp] theorem State.recordTimeout_host_irqPend (s : State) :
    s.recordTimeout.host.irqPend = s.host.irqPend ||| IrqSource.bit .ringTimeout := rfl
@[simp] theorem State.recordTimeout_host_swphase (s : State) : s.recordTimeout.host.swphase = s.host.swphase := rfl
@[simp] theorem State.recordTimeout_pvu (s : State) : s.recordTimeout.pvu = s.pvu := rfl
@[simp] theorem State.recordTimeout_sdu (s : State) : s.recordTimeout.sdu = s.sdu := rfl
@[simp] theorem State.recordTimeout_ssm_rings (s : State) : s.recordTimeout.ssm.rings = s.ssm.rings := rfl
@[simp] theorem State.recordTimeout_ssm_prerot (s : State) : s.recordTimeout.ssm.prerot = s.ssm.prerot := rfl
@[simp] theorem State.recordTimeout_ssm_rto (s : State) : s.recordTimeout.ssm.rto = s.ssm.rto := rfl
@[simp] theorem State.recordTimeout_ssm_spring (s : State) : s.recordTimeout.ssm.spring = s.ssm.spring := rfl
@[simp] theorem State.recordTimeout_ssm_ringIdx (s : State) : s.recordTimeout.ssm.ringIdx = s.ssm.ringIdx := rfl
@[simp] theorem State.recordTimeout_ssm_failRing (s : State) : s.recordTimeout.ssm.failRing = s.ssm.ringIdx := rfl
@[simp] theorem State.recordTimeout_ssm_sweepAcc (s : State) : s.recordTimeout.ssm.sweepAcc = s.ssm.sweepAcc := rfl
@[simp] theorem State.recordTimeout_ssm_state (s : State) : s.recordTimeout.ssm.state = s.ssm.state := rfl
@[simp] theorem State.recordTimeout_ssm_cancelPend (s : State) :
    s.recordTimeout.ssm.cancelPend = s.ssm.cancelPend := rfl
@[simp] theorem State.recordTimeout_ssm_rtoCnt (s : State) : s.recordTimeout.ssm.rtoCnt = s.ssm.rtoCnt := rfl
@[simp] theorem State.recordTimeout_ssm_seqEnd (s : State) : s.recordTimeout.ssm.seqEnd = s.ssm.seqEnd := rfl
@[simp] theorem State.recordTimeout_ctu (s : State) : s.recordTimeout.ctu = s.ctu := rfl
@[simp] theorem State.recordTimeout_lines (s : State) : s.recordTimeout.lines = s.lines := rfl
@[simp] theorem State.recordTimeout_params (s : State) : s.recordTimeout.params = s.params := rfl
@[simp] theorem State.recordTimeout_inputs (s : State) : s.recordTimeout.inputs = s.inputs := rfl
@[simp] theorem State.recordTimeout_readData (s : State) : s.recordTimeout.readData = s.readData := rfl

/-! ### finishTurn -/

@[simp] theorem State.finishTurn_host (s : State) : s.finishTurn.host = s.host := rfl
@[simp] theorem State.finishTurn_pvu (s : State) : s.finishTurn.pvu = s.pvu := rfl
@[simp] theorem State.finishTurn_sdu_mscode (s : State) : s.finishTurn.sdu.mscode = s.sdu.mscode := rfl
@[simp] theorem State.finishTurn_sdu_speed (s : State) : s.finishTurn.sdu.speed = s.sdu.speed := rfl
@[simp] theorem State.finishTurn_sdu_corr (s : State) : s.finishTurn.sdu.corr = s.sdu.corr := rfl
@[simp] theorem State.finishTurn_sdu_pos (s : State) :
    s.finishTurn.sdu.pos = advancePos s.sdu.turnDir s.sdu.mscode s.sdu.turnN s.sdu.pos := rfl
@[simp] theorem State.finishTurn_sdu_stepCnt (s : State) : s.finishTurn.sdu.stepCnt = s.sdu.stepCnt := rfl
@[simp] theorem State.finishTurn_sdu_half (s : State) : s.finishTurn.sdu.half = s.sdu.half := rfl
@[simp] theorem State.finishTurn_sdu_turnN (s : State) : s.finishTurn.sdu.turnN = s.sdu.turnN := rfl
@[simp] theorem State.finishTurn_sdu_state (s : State) : s.finishTurn.sdu.state = .idle := rfl
@[simp] theorem State.finishTurn_sdu_phCnt (s : State) : s.finishTurn.sdu.phCnt = s.sdu.phCnt := rfl
@[simp] theorem State.finishTurn_sdu_rem (s : State) : s.finishTurn.sdu.rem = s.sdu.rem := rfl
@[simp] theorem State.finishTurn_sdu_turnDir (s : State) : s.finishTurn.sdu.turnDir = s.sdu.turnDir := rfl
@[simp] theorem State.finishTurn_sdu_turnOrigin (s : State) : s.finishTurn.sdu.turnOrigin = s.sdu.turnOrigin := rfl
@[simp] theorem State.finishTurn_ssm (s : State) : s.finishTurn.ssm = s.ssm := rfl
@[simp] theorem State.finishTurn_ctu (s : State) : s.finishTurn.ctu = s.ctu := rfl
@[simp] theorem State.finishTurn_lines (s : State) : s.finishTurn.lines = s.lines := rfl
@[simp] theorem State.finishTurn_params (s : State) : s.finishTurn.params = s.params := rfl
@[simp] theorem State.finishTurn_inputs (s : State) : s.finishTurn.inputs = s.inputs := rfl
@[simp] theorem State.finishTurn_readData (s : State) : s.finishTurn.readData = s.readData := rfl

/-! ### startHold -/

@[simp] theorem State.startHold_host (q : SduState) (s : State) : (s.startHold q).host = s.host := rfl
@[simp] theorem State.startHold_pvu (q : SduState) (s : State) : (s.startHold q).pvu = s.pvu := rfl
@[simp] theorem State.startHold_sdu_mscode (q : SduState) (s : State) :
    (s.startHold q).sdu.mscode = s.sdu.mscode := rfl
@[simp] theorem State.startHold_sdu_speed (q : SduState) (s : State) : (s.startHold q).sdu.speed = s.sdu.speed := rfl
@[simp] theorem State.startHold_sdu_corr (q : SduState) (s : State) : (s.startHold q).sdu.corr = s.sdu.corr := rfl
@[simp] theorem State.startHold_sdu_pos (q : SduState) (s : State) : (s.startHold q).sdu.pos = s.sdu.pos := rfl
@[simp] theorem State.startHold_sdu_stepCnt (q : SduState) (s : State) :
    (s.startHold q).sdu.stepCnt = s.sdu.stepCnt := rfl
@[simp] theorem State.startHold_sdu_half (q : SduState) (s : State) : (s.startHold q).sdu.half = s.sdu.half := rfl
@[simp] theorem State.startHold_sdu_turnN (q : SduState) (s : State) : (s.startHold q).sdu.turnN = s.sdu.turnN := rfl
@[simp] theorem State.startHold_sdu_state (q : SduState) (s : State) : (s.startHold q).sdu.state = q := rfl
@[simp] theorem State.startHold_sdu_phCnt (q : SduState) (s : State) : (s.startHold q).sdu.phCnt = s.sdu.half := rfl
@[simp] theorem State.startHold_sdu_rem (q : SduState) (s : State) : (s.startHold q).sdu.rem = s.sdu.rem := rfl
@[simp] theorem State.startHold_sdu_turnDir (q : SduState) (s : State) :
    (s.startHold q).sdu.turnDir = s.sdu.turnDir := rfl
@[simp] theorem State.startHold_sdu_turnOrigin (q : SduState) (s : State) :
    (s.startHold q).sdu.turnOrigin = s.sdu.turnOrigin := rfl
@[simp] theorem State.startHold_ssm (q : SduState) (s : State) : (s.startHold q).ssm = s.ssm := rfl
@[simp] theorem State.startHold_ctu (q : SduState) (s : State) : (s.startHold q).ctu = s.ctu := rfl
@[simp] theorem State.startHold_lines (q : SduState) (s : State) : (s.startHold q).lines = s.lines := rfl
@[simp] theorem State.startHold_params (q : SduState) (s : State) : (s.startHold q).params = s.params := rfl
@[simp] theorem State.startHold_inputs (q : SduState) (s : State) : (s.startHold q).inputs = s.inputs := rfl
@[simp] theorem State.startHold_readData (q : SduState) (s : State) : (s.startHold q).readData = s.readData := rfl

/-! ### countHold -/

@[simp] theorem State.countHold_host (s : State) : s.countHold.host = s.host := rfl
@[simp] theorem State.countHold_pvu (s : State) : s.countHold.pvu = s.pvu := rfl
@[simp] theorem State.countHold_sdu_mscode (s : State) : s.countHold.sdu.mscode = s.sdu.mscode := rfl
@[simp] theorem State.countHold_sdu_speed (s : State) : s.countHold.sdu.speed = s.sdu.speed := rfl
@[simp] theorem State.countHold_sdu_corr (s : State) : s.countHold.sdu.corr = s.sdu.corr := rfl
@[simp] theorem State.countHold_sdu_pos (s : State) : s.countHold.sdu.pos = s.sdu.pos := rfl
@[simp] theorem State.countHold_sdu_stepCnt (s : State) : s.countHold.sdu.stepCnt = s.sdu.stepCnt := rfl
@[simp] theorem State.countHold_sdu_half (s : State) : s.countHold.sdu.half = s.sdu.half := rfl
@[simp] theorem State.countHold_sdu_turnN (s : State) : s.countHold.sdu.turnN = s.sdu.turnN := rfl
@[simp] theorem State.countHold_sdu_state (s : State) : s.countHold.sdu.state = s.sdu.state := rfl
@[simp] theorem State.countHold_sdu_phCnt (s : State) : s.countHold.sdu.phCnt = s.sdu.phCnt - 1 := rfl
@[simp] theorem State.countHold_sdu_rem (s : State) : s.countHold.sdu.rem = s.sdu.rem := rfl
@[simp] theorem State.countHold_sdu_turnDir (s : State) : s.countHold.sdu.turnDir = s.sdu.turnDir := rfl
@[simp] theorem State.countHold_sdu_turnOrigin (s : State) : s.countHold.sdu.turnOrigin = s.sdu.turnOrigin := rfl
@[simp] theorem State.countHold_ssm (s : State) : s.countHold.ssm = s.ssm := rfl
@[simp] theorem State.countHold_ctu (s : State) : s.countHold.ctu = s.ctu := rfl
@[simp] theorem State.countHold_lines (s : State) : s.countHold.lines = s.lines := rfl
@[simp] theorem State.countHold_params (s : State) : s.countHold.params = s.params := rfl
@[simp] theorem State.countHold_inputs (s : State) : s.countHold.inputs = s.inputs := rfl
@[simp] theorem State.countHold_readData (s : State) : s.countHold.readData = s.readData := rfl

/-! ### countPulse -/

@[simp] theorem State.countPulse_host (s : State) : s.countPulse.host = s.host := rfl
@[simp] theorem State.countPulse_pvu (s : State) : s.countPulse.pvu = s.pvu := rfl
@[simp] theorem State.countPulse_sdu_mscode (s : State) : s.countPulse.sdu.mscode = s.sdu.mscode := rfl
@[simp] theorem State.countPulse_sdu_speed (s : State) : s.countPulse.sdu.speed = s.sdu.speed := rfl
@[simp] theorem State.countPulse_sdu_corr (s : State) : s.countPulse.sdu.corr = s.sdu.corr := rfl
@[simp] theorem State.countPulse_sdu_pos (s : State) : s.countPulse.sdu.pos = s.sdu.pos := rfl
@[simp] theorem State.countPulse_sdu_stepCnt (s : State) : s.countPulse.sdu.stepCnt = s.sdu.stepCnt + 1 := rfl
@[simp] theorem State.countPulse_sdu_half (s : State) : s.countPulse.sdu.half = s.sdu.half := rfl
@[simp] theorem State.countPulse_sdu_turnN (s : State) : s.countPulse.sdu.turnN = s.sdu.turnN := rfl
@[simp] theorem State.countPulse_sdu_state (s : State) : s.countPulse.sdu.state = s.sdu.state := rfl
@[simp] theorem State.countPulse_sdu_phCnt (s : State) : s.countPulse.sdu.phCnt = s.sdu.phCnt - 1 := rfl
@[simp] theorem State.countPulse_sdu_rem (s : State) : s.countPulse.sdu.rem = s.sdu.rem - 1 := rfl
@[simp] theorem State.countPulse_sdu_turnDir (s : State) : s.countPulse.sdu.turnDir = s.sdu.turnDir := rfl
@[simp] theorem State.countPulse_sdu_turnOrigin (s : State) : s.countPulse.sdu.turnOrigin = s.sdu.turnOrigin := rfl
@[simp] theorem State.countPulse_ssm (s : State) : s.countPulse.ssm = s.ssm := rfl
@[simp] theorem State.countPulse_ctu (s : State) : s.countPulse.ctu = s.ctu := rfl
@[simp] theorem State.countPulse_lines (s : State) : s.countPulse.lines = s.lines := rfl
@[simp] theorem State.countPulse_params (s : State) : s.countPulse.params = s.params := rfl
@[simp] theorem State.countPulse_inputs (s : State) : s.countPulse.inputs = s.inputs := rfl
@[simp] theorem State.countPulse_readData (s : State) : s.countPulse.readData = s.readData := rfl

/-! ### setLastcmd -/

@[simp] theorem State.setLastcmd_host_lastcmd (v : Word) (s : State) :
    (s.setLastcmd v).host.lastcmd = opcField v := rfl
@[simp] theorem State.setLastcmd_host_arg0 (v : Word) (s : State) : (s.setLastcmd v).host.arg0 = s.host.arg0 := rfl
@[simp] theorem State.setLastcmd_host_arg1 (v : Word) (s : State) : (s.setLastcmd v).host.arg1 = s.host.arg1 := rfl
@[simp] theorem State.setLastcmd_host_result (v : Word) (s : State) :
    (s.setLastcmd v).host.result = s.host.result := rfl
@[simp] theorem State.setLastcmd_host_err (v : Word) (s : State) : (s.setLastcmd v).host.err = s.host.err := rfl
@[simp] theorem State.setLastcmd_host_irqEn (v : Word) (s : State) : (s.setLastcmd v).host.irqEn = s.host.irqEn := rfl
@[simp] theorem State.setLastcmd_host_irqPend (v : Word) (s : State) :
    (s.setLastcmd v).host.irqPend = s.host.irqPend := rfl
@[simp] theorem State.setLastcmd_host_swphase (v : Word) (s : State) :
    (s.setLastcmd v).host.swphase = s.host.swphase := rfl
@[simp] theorem State.setLastcmd_pvu (v : Word) (s : State) : (s.setLastcmd v).pvu = s.pvu := rfl
@[simp] theorem State.setLastcmd_sdu (v : Word) (s : State) : (s.setLastcmd v).sdu = s.sdu := rfl
@[simp] theorem State.setLastcmd_ssm (v : Word) (s : State) : (s.setLastcmd v).ssm = s.ssm := rfl
@[simp] theorem State.setLastcmd_ctu (v : Word) (s : State) : (s.setLastcmd v).ctu = s.ctu := rfl
@[simp] theorem State.setLastcmd_lines (v : Word) (s : State) : (s.setLastcmd v).lines = s.lines := rfl
@[simp] theorem State.setLastcmd_params (v : Word) (s : State) : (s.setLastcmd v).params = s.params := rfl
@[simp] theorem State.setLastcmd_inputs (v : Word) (s : State) : (s.setLastcmd v).inputs = s.inputs := rfl
@[simp] theorem State.setLastcmd_readData (v : Word) (s : State) : (s.setLastcmd v).readData = s.readData := rfl

/-! ### setReadData -/

@[simp] theorem State.setReadData_host (d : Option Word) (s : State) : (s.setReadData d).host = s.host := rfl
@[simp] theorem State.setReadData_pvu (d : Option Word) (s : State) : (s.setReadData d).pvu = s.pvu := rfl
@[simp] theorem State.setReadData_sdu (d : Option Word) (s : State) : (s.setReadData d).sdu = s.sdu := rfl
@[simp] theorem State.setReadData_ssm (d : Option Word) (s : State) : (s.setReadData d).ssm = s.ssm := rfl
@[simp] theorem State.setReadData_ctu (d : Option Word) (s : State) : (s.setReadData d).ctu = s.ctu := rfl
@[simp] theorem State.setReadData_lines (d : Option Word) (s : State) : (s.setReadData d).lines = s.lines := rfl
@[simp] theorem State.setReadData_params (d : Option Word) (s : State) : (s.setReadData d).params = s.params := rfl
@[simp] theorem State.setReadData_inputs (d : Option Word) (s : State) : (s.setReadData d).inputs = s.inputs := rfl
@[simp] theorem State.setReadData_readData (d : Option Word) (s : State) : (s.setReadData d).readData = d := rfl

/-! ### enterReturn: what it leaves alone, and what it sets, whatever SWEEP_ACC is -/

@[simp] theorem State.enterReturn_pvu (c : SeqEnd) (s : State) :
    (s.enterReturn c).pvu = s.pvu := by
  unfold State.enterReturn; split <;> rfl
@[simp] theorem State.enterReturn_ctu (c : SeqEnd) (s : State) :
    (s.enterReturn c).ctu = s.ctu := by
  unfold State.enterReturn; split <;> rfl
@[simp] theorem State.enterReturn_lines (c : SeqEnd) (s : State) :
    (s.enterReturn c).lines = s.lines := by
  unfold State.enterReturn; split <;> rfl
@[simp] theorem State.enterReturn_params (c : SeqEnd) (s : State) :
    (s.enterReturn c).params = s.params := by
  unfold State.enterReturn; split <;> rfl
@[simp] theorem State.enterReturn_inputs (c : SeqEnd) (s : State) :
    (s.enterReturn c).inputs = s.inputs := by
  unfold State.enterReturn; split <;> rfl
@[simp] theorem State.enterReturn_readData (c : SeqEnd) (s : State) :
    (s.enterReturn c).readData = s.readData := by
  unfold State.enterReturn; split <;> rfl
@[simp] theorem State.enterReturn_ssm_rings (c : SeqEnd) (s : State) :
    (s.enterReturn c).ssm.rings = s.ssm.rings := by
  unfold State.enterReturn; split <;> rfl
@[simp] theorem State.enterReturn_ssm_prerot (c : SeqEnd) (s : State) :
    (s.enterReturn c).ssm.prerot = s.ssm.prerot := by
  unfold State.enterReturn; split <;> rfl
@[simp] theorem State.enterReturn_ssm_rto (c : SeqEnd) (s : State) :
    (s.enterReturn c).ssm.rto = s.ssm.rto := by
  unfold State.enterReturn; split <;> rfl
@[simp] theorem State.enterReturn_ssm_spring (c : SeqEnd) (s : State) :
    (s.enterReturn c).ssm.spring = s.ssm.spring := by
  unfold State.enterReturn; split <;> rfl
@[simp] theorem State.enterReturn_ssm_ringIdx (c : SeqEnd) (s : State) :
    (s.enterReturn c).ssm.ringIdx = s.ssm.ringIdx := by
  unfold State.enterReturn; split <;> rfl
@[simp] theorem State.enterReturn_ssm_failRing (c : SeqEnd) (s : State) :
    (s.enterReturn c).ssm.failRing = s.ssm.failRing := by
  unfold State.enterReturn; split <;> rfl
@[simp] theorem State.enterReturn_ssm_sweepAcc (c : SeqEnd) (s : State) :
    (s.enterReturn c).ssm.sweepAcc = s.ssm.sweepAcc := by
  unfold State.enterReturn; split <;> rfl
@[simp] theorem State.enterReturn_ssm_cancelPend (c : SeqEnd) (s : State) :
    (s.enterReturn c).ssm.cancelPend = false := by
  unfold State.enterReturn; split <;> rfl
@[simp] theorem State.enterReturn_ssm_rtoCnt (c : SeqEnd) (s : State) :
    (s.enterReturn c).ssm.rtoCnt = s.ssm.rtoCnt := by
  unfold State.enterReturn; split <;> rfl
@[simp] theorem State.enterReturn_ssm_seqEnd (c : SeqEnd) (s : State) :
    (s.enterReturn c).ssm.seqEnd = c := by
  unfold State.enterReturn; split <;> rfl
@[simp] theorem State.enterReturn_sdu_mscode (c : SeqEnd) (s : State) :
    (s.enterReturn c).sdu.mscode = s.sdu.mscode := by
  unfold State.enterReturn; split <;> rfl
@[simp] theorem State.enterReturn_sdu_speed (c : SeqEnd) (s : State) :
    (s.enterReturn c).sdu.speed = s.sdu.speed := by
  unfold State.enterReturn; split <;> rfl
@[simp] theorem State.enterReturn_sdu_corr (c : SeqEnd) (s : State) :
    (s.enterReturn c).sdu.corr = s.sdu.corr := by
  unfold State.enterReturn; split <;> rfl
@[simp] theorem State.enterReturn_sdu_pos (c : SeqEnd) (s : State) :
    (s.enterReturn c).sdu.pos = s.sdu.pos := by
  unfold State.enterReturn; split <;> rfl
@[simp] theorem State.enterReturn_host_lastcmd (c : SeqEnd) (s : State) :
    (s.enterReturn c).host.lastcmd = s.host.lastcmd := by
  unfold State.enterReturn; split <;> rfl
@[simp] theorem State.enterReturn_host_arg0 (c : SeqEnd) (s : State) :
    (s.enterReturn c).host.arg0 = s.host.arg0 := by
  unfold State.enterReturn; split <;> rfl
@[simp] theorem State.enterReturn_host_arg1 (c : SeqEnd) (s : State) :
    (s.enterReturn c).host.arg1 = s.host.arg1 := by
  unfold State.enterReturn; split <;> rfl
@[simp] theorem State.enterReturn_host_result (c : SeqEnd) (s : State) :
    (s.enterReturn c).host.result = s.host.result := by
  unfold State.enterReturn; split <;> rfl
@[simp] theorem State.enterReturn_host_err (c : SeqEnd) (s : State) :
    (s.enterReturn c).host.err = s.host.err := by
  unfold State.enterReturn; split <;> rfl
@[simp] theorem State.enterReturn_host_irqEn (c : SeqEnd) (s : State) :
    (s.enterReturn c).host.irqEn = s.host.irqEn := by
  unfold State.enterReturn; split <;> rfl
@[simp] theorem State.enterReturn_host_swphase (c : SeqEnd) (s : State) :
    (s.enterReturn c).host.swphase = s.host.swphase := by
  unfold State.enterReturn; split <;> rfl

end Sys2Proof.Machine
end

