-- ==== Sys2Proof/Laws/Step.lean ====
section
/-! SUPPORT. For each shared operation, one lemma that says once everything it can do: what the provers cite instead
of unfolding it. -/

namespace Sys2Proof.Machine

/-! ## Primitives -/

/-- A rejection is the result code and two sticky bits on the state as it was (60_exceptions R441). -/
theorem State.reject_eq (c : ResultCode) (s : State) :
    s.reject c =
      { s with
        host := { s.host with
          result := c
          err := s.host.err ||| ErrBit.bit .cmdReject
          irqPend := s.host.irqPend ||| IrqSource.bit .cmdReject } } := rfl

/-- EnterReturn either ends the sweep at once or starts the reset rotation (42_sweep_sequencer R328). -/
theorem State.enterReturn_cases (c : SeqEnd) (s : State) :
    (s.ssm.sweepAcc = 0 ∧ s.enterReturn c = ((s.endSweep c).setSeqState .idle).pend .sweepDone) ∨
    (s.ssm.sweepAcc ≠ 0 ∧
      s.enterReturn c = ((s.endSweep c).startTurn .ccw s.ssm.sweepAcc .seq).setSeqState .returning) := by
  unfold State.enterReturn
  split
  · exact .inl ⟨by assumption, rfl⟩
  · exact .inr ⟨by assumption, rfl⟩

/-- BUSY_NOW is false exactly when both units are idle. -/
theorem State.busyNow_eq_false {s : State} :
    s.busyNow = false ↔ s.sdu.state = .idle ∧ s.ssm.state = .idle := by
  simp [State.busyNow]

/-- BUSY_NOW is true exactly when a unit is not idle. -/
theorem State.busyNow_eq_true {s : State} :
    s.busyNow = true ↔ s.sdu.state ≠ .idle ∨ s.ssm.state ≠ .idle := by
  simp [State.busyNow]

/-! ## Ticks -/

/-- TurnComplete is the finished turn, with TURN_DONE for a turn of the host (41_stepper_drive R269). -/
theorem turnComplete_cases (s : State) :
    (s.sdu.turnOrigin = .host ∧ turnComplete s = s.finishTurn.pend .turnDone) ∨
    (s.sdu.turnOrigin = .seq ∧ turnComplete s = s.finishTurn) := by
  unfold turnComplete
  split
  · exact .inl ⟨by assumption, rfl⟩
  · exact .inr ⟨by assumption, rfl⟩

/-- Everything an SDU tick can do (41_stepper_drive R268). -/
theorem sduTick_cases (s : State) :
    (s.sdu.state = .idle ∧ sduTick s = (s, false)) ∨
    (s.sdu.state = .setup ∧ sduTick s = (s.startHold .high, false)) ∨
    (s.sdu.state = .high ∧ s.sdu.phCnt - 1 = 0 ∧ sduTick s = (s.startHold .low, false)) ∨
    ((s.sdu.state = .high ∨ s.sdu.state = .low) ∧ s.sdu.phCnt - 1 ≠ 0 ∧ sduTick s = (s.countHold, false)) ∨
    (s.sdu.state = .low ∧ s.sdu.phCnt - 1 = 0 ∧ s.sdu.rem - 1 ≠ 0 ∧
      sduTick s = (s.countPulse.startHold .high, false)) ∨
    (s.sdu.state = .low ∧ s.sdu.phCnt - 1 = 0 ∧ s.sdu.rem - 1 = 0 ∧
      sduTick s = (turnComplete s.countPulse, true)) := by
  unfold sduTick
  split
  · exact .inl ⟨by assumption, rfl⟩
  · exact .inr (.inl ⟨by assumption, rfl⟩)
  · split
    · exact .inr (.inr (.inl ⟨by assumption, by assumption, rfl⟩))
    · exact .inr (.inr (.inr (.inl ⟨.inl (by assumption), by assumption, rfl⟩)))
  · split
    · split
      · exact .inr (.inr (.inr (.inr (.inr ⟨by assumption, by assumption, by assumption, rfl⟩))))
      · exact .inr (.inr (.inr (.inr (.inl ⟨by assumption, by assumption, by assumption, rfl⟩))))
    · exact .inr (.inr (.inr (.inl ⟨.inr (by assumption), by assumption, rfl⟩)))

/-- Everything an SSM tick can do (42_sweep_sequencer R329 to R332). -/
theorem ssmTick_cases (done : Bool) (s : State) :
    ((s.ssm.state ≠ .ringWait ∧ (done = false ∨ s.ssm.state = .idle)) ∧ ssmTick done s = s) ∨
    (s.ssm.state = .prerot ∧ done = true ∧ s.ssm.cancelPend = true ∧
      ssmTick done s = (s.addSweep (s.ssm.prerot.setWidth 64)).enterReturn .cancelled) ∨
    (s.ssm.state = .prerot ∧ done = true ∧ s.ssm.cancelPend = false ∧
      ssmTick done s = (s.addSweep (s.ssm.prerot.setWidth 64)).enterRingWait) ∨
    (s.ssm.state = .advance ∧ done = true ∧ s.ssm.cancelPend = true ∧
      ssmTick done s = (s.addSweep (s.ssm.spring.setWidth 64)).enterReturn .cancelled) ∨
    (s.ssm.state = .advance ∧ done = true ∧ s.ssm.cancelPend = false ∧ s.angleReached = true ∧
      ssmTick done s = (s.addSweep (s.ssm.spring.setWidth 64)).enterReturn .complete) ∨
    (s.ssm.state = .advance ∧ done = true ∧ s.ssm.cancelPend = false ∧ s.angleReached = false ∧
      ssmTick done s = (s.addSweep (s.ssm.spring.setWidth 64)).enterRingWait) ∨
    (s.ssm.state = .returning ∧ done = true ∧ ssmTick done s = (s.setSeqState .idle).pend .sweepDone) ∨
    (s.ssm.state = .ringWait ∧ (s.ssm.rto ≠ 0 ∧ s.ssm.rto.toNat ≤ (rtoCount s.ssm.rtoCnt).toNat) ∧
      ssmTick done s = s.countRto.recordTimeout.enterReturn .timeout) ∨
    (s.ssm.state = .ringWait ∧ ¬(s.ssm.rto ≠ 0 ∧ s.ssm.rto.toNat ≤ (rtoCount s.ssm.rtoCnt).toNat) ∧
      ssmTick done s = s.countRto) := by
  unfold ssmTick
  split
  · exact .inl ⟨by simp_all, rfl⟩
  · rename_i hs
    cases done with
    | false => exact .inl ⟨by simp [hs], by simp⟩
    | true =>
      cases hc : s.ssm.cancelPend
      · exact .inr (.inr (.inl ⟨hs, rfl, rfl, by simp [prerotDone, hc]⟩))
      · exact .inr (.inl ⟨hs, rfl, rfl, by simp [prerotDone, hc]⟩)
  · rename_i hs
    cases done with
    | false => exact .inl ⟨by simp [hs], by simp⟩
    | true =>
      cases hc : s.ssm.cancelPend
      · cases ha : s.angleReached
        · exact .inr (.inr (.inr (.inr (.inr (.inl ⟨hs, rfl, rfl, rfl, by simp [advanceDone, hc, ha]⟩)))))
        · exact .inr (.inr (.inr (.inr (.inl ⟨hs, rfl, rfl, rfl, by simp [advanceDone, hc, ha]⟩))))
      · exact .inr (.inr (.inr (.inl ⟨hs, rfl, rfl, by simp [advanceDone, hc]⟩)))
  · rename_i hs
    cases done with
    | false => exact .inl ⟨by simp [hs], by simp⟩
    | true => exact .inr (.inr (.inr (.inr (.inr (.inr (.inl ⟨hs, rfl, by simp⟩))))))
  · rename_i hs
    unfold ringWaitTick
    split
    · rename_i h
      exact .inr (.inr (.inr (.inr (.inr (.inr (.inr (.inl ⟨hs, h, rfl⟩)))))))
    · rename_i h
      exact .inr (.inr (.inr (.inr (.inr (.inr (.inr (.inr ⟨hs, h, rfl⟩)))))))

/-! ## Commands -/

/-- NOP is a completion (44_general R410). -/
theorem execNop_eq (s : State) : execNop s = .next (s.complete .ok) := rfl

@[simp] theorem State.acceptPacket_rxq (s : State) : s.acceptPacket.rxq = s.pvu.rxq.drop s.takenCount := rfl
@[simp] theorem State.acceptPacket_pktbuf (s : State) : s.acceptPacket.pktbuf = s.readBuffer := by
  rw [State.acceptPacket]
@[simp] theorem State.acceptPacket_pktValid (s : State) : s.acceptPacket.pktValid = true := rfl
@[simp] theorem State.acceptPacket_pktLast (s : State) : s.acceptPacket.pktLast = .ok := rfl
@[simp] theorem State.acceptPacket_resyncCnt (s : State) : s.acceptPacket.resyncCnt = 0 := rfl
@[simp] theorem State.acceptPacket_pktOkCnt (s : State) : s.acceptPacket.pktOkCnt = s.pvu.pktOkCnt + 1 := rfl
@[simp] theorem State.acceptPacket_pktErrCnt (s : State) : s.acceptPacket.pktErrCnt = s.pvu.pktErrCnt := rfl

@[simp] theorem State.discardPacket_rxq (v : PktVerdict) (s : State) :
    (s.discardPacket v).rxq = (resync (s.pvu.rxq.drop s.takenCount)).1 := rfl
@[simp] theorem State.discardPacket_pktbuf (v : PktVerdict) (s : State) :
    (s.discardPacket v).pktbuf = s.readBuffer := by
  rw [State.discardPacket]
@[simp] theorem State.discardPacket_pktValid (v : PktVerdict) (s : State) :
    (s.discardPacket v).pktValid = false := rfl
@[simp] theorem State.discardPacket_pktLast (v : PktVerdict) (s : State) : (s.discardPacket v).pktLast = v := rfl
@[simp] theorem State.discardPacket_resyncCnt (v : PktVerdict) (s : State) :
    (s.discardPacket v).resyncCnt = BitVec.ofNat 32 (resync (s.pvu.rxq.drop s.takenCount)).2 := rfl
@[simp] theorem State.discardPacket_pktOkCnt (v : PktVerdict) (s : State) :
    (s.discardPacket v).pktOkCnt = s.pvu.pktOkCnt := rfl
@[simp] theorem State.discardPacket_pktErrCnt (v : PktVerdict) (s : State) :
    (s.discardPacket v).pktErrCnt = s.pvu.pktErrCnt + 1 := rfl

/-- PKT_READ accepts the packet, or discards it and resynchronises (40_packet_validator R205). -/
theorem execPktRead_cases (s : State) :
    (s.readVerdict = .ok ∧ execPktRead s = .next (State.complete .ok { s with pvu := s.acceptPacket })) ∨
    (s.readVerdict ≠ .ok ∧ execPktRead s =
      .next (State.complete s.readVerdict.result { s with pvu := s.discardPacket s.readVerdict })) := by
  unfold execPktRead
  by_cases h : s.readVerdict = .ok
  · rw [if_pos h, h]; exact .inl ⟨rfl, rfl⟩
  · rw [if_neg h]; exact .inr ⟨h, rfl⟩

/-- PKT_CHECK records its verdict (40_packet_validator R207). -/
theorem execPktCheck_eq (s : State) :
    execPktCheck s = .next (State.complete s.bufferVerdict.result
      { s with pvu := { s.pvu with pktValid := decide (s.bufferVerdict = .ok), pktLast := s.bufferVerdict } }) :=
  rfl

/-- SET_RES: busy, an illegal code, or the preset of the code (41_stepper_drive R262). -/
theorem execSetRes_cases (s : State) :
    (s.busyNow = true ∧ execSetRes s = .next (s.reject .busy)) ∨
    (s.busyNow = false ∧ Preset.ofCode s.arg0Nat = none ∧ execSetRes s = .next (s.reject .invalidResolution)) ∨
    (∃ p, s.busyNow = false ∧ Preset.ofCode s.arg0Nat = some p ∧
      execSetRes s = .next (State.complete .ok { s with sdu := { s.sdu with mscode := p } })) := by
  unfold execSetRes
  cases hb : s.busyNow with
  | true => simp
  | false => cases hp : Preset.ofCode s.arg0Nat <;> simp

/-- SET_SPEED: busy, out of range, or the speed stored (41_stepper_drive R263). -/
theorem execSetSpeed_cases (s : State) :
    (s.busyNow = true ∧ execSetSpeed s = .next (s.reject .busy)) ∨
    (s.busyNow = false ∧ (s.host.arg0.toNat = 0 ∨ 4500 < s.host.arg0.toNat) ∧
      execSetSpeed s = .next (s.reject .invalidSpeed)) ∨
    (s.busyNow = false ∧ 1 ≤ s.host.arg0.toNat ∧ s.host.arg0.toNat ≤ 4500 ∧
      execSetSpeed s = .next (State.complete .ok { s with sdu := { s.sdu with speed := s.host.arg0 } })) := by
  unfold execSetSpeed
  split
  · exact .inl ⟨by assumption, rfl⟩
  · rename_i hb
    have hb : s.busyNow = false := by simpa using hb
    split
    · rename_i h
      exact .inr (.inl ⟨hb, h, rfl⟩)
    · rename_i h
      have h' : ¬(s.host.arg0.toNat = 0 ∨ 4500 < s.host.arg0.toNat) := h
      exact .inr (.inr ⟨hb, by omega, by omega, rfl⟩)

/-- SET_CORR: busy, not finite and positive, or the pattern stored (41_stepper_drive R264). -/
theorem execSetCorr_cases (s : State) :
    (s.busyNow = true ∧ execSetCorr s = .next (s.reject .busy)) ∨
    (s.busyNow = false ∧ ¬(F64.finite s.argF64 = true ∧ 0 < F64.scaled s.argF64) ∧
      execSetCorr s = .next (s.reject .invalidCorr)) ∨
    (s.busyNow = false ∧ (F64.finite s.argF64 = true ∧ 0 < F64.scaled s.argF64) ∧
      execSetCorr s = .next (State.complete .ok { s with sdu := { s.sdu with corr := s.argF64 } })) := by
  unfold execSetCorr
  split
  · exact .inl ⟨by assumption, rfl⟩
  · rename_i hb
    have hb : s.busyNow = false := by simpa using hb
    split
    · exact .inr (.inr ⟨hb, by assumption, rfl⟩)
    · exact .inr (.inl ⟨hb, by assumption, rfl⟩)

/-- TURN: busy, no steps, or a turn of the host started (41_stepper_drive R267). -/
theorem execTurn_cases (s : State) :
    (s.busyNow = true ∧ execTurn s = .next (s.reject .busy)) ∨
    (s.busyNow = false ∧ s.host.arg0.toNat = 0 ∧ execTurn s = .next (s.reject .stepsTooSmall)) ∨
    (s.busyNow = false ∧ s.host.arg0.toNat ≠ 0 ∧
      execTurn s = .next (State.complete .ok (s.startTurn s.arg1Dir s.arg0Steps .host))) := by
  unfold execTurn
  split
  · exact .inl ⟨by assumption, rfl⟩
  · rename_i hb
    have hb : s.busyNow = false := by simpa using hb
    split
    · exact .inr (.inl ⟨hb, by assumption, rfl⟩)
    · exact .inr (.inr ⟨hb, by assumption, rfl⟩)

/-- SET_RINGS: busy, zero, too fine, or the count stored (42_sweep_sequencer R320). -/
theorem execSetRings_cases (s : State) :
    (s.busyNow = true ∧ execSetRings s = .next (s.reject .busy)) ∨
    (s.busyNow = false ∧ s.host.arg0.toNat = 0 ∧ execSetRings s = .next (s.reject .invalidRings)) ∨
    (s.busyNow = false ∧ s.host.arg0.toNat ≠ 0 ∧ 100 * Preset.md s.sdu.mscode < s.host.arg0.toNat ∧
      execSetRings s = .next (s.reject .resolutionTooFine)) ∨
    (s.busyNow = false ∧ s.host.arg0.toNat ≠ 0 ∧ s.host.arg0.toNat ≤ 100 * Preset.md s.sdu.mscode ∧
      execSetRings s = .next (State.complete .ok { s with ssm := { s.ssm with rings := s.host.arg0 } })) := by
  unfold execSetRings
  split
  · exact .inl ⟨by assumption, rfl⟩
  · rename_i hb
    have hb : s.busyNow = false := by simpa using hb
    split
    · exact .inr (.inl ⟨hb, by assumption, rfl⟩)
    · rename_i h0
      split
      · exact .inr (.inr (.inl ⟨hb, h0, by assumption, rfl⟩))
      · rename_i h
        exact .inr (.inr (.inr ⟨hb, h0, not_lt.1 h, rfl⟩))

/-- SET_PREROT: busy, or the step count stored (42_sweep_sequencer R321). -/
theorem execSetPrerot_cases (s : State) :
    (s.busyNow = true ∧ execSetPrerot s = .next (s.reject .busy)) ∨
    (s.busyNow = false ∧
      execSetPrerot s = .next (State.complete .ok { s with ssm := { s.ssm with prerot := s.host.arg0 } })) := by
  unfold execSetPrerot
  cases hb : s.busyNow <;> simp

/-- SET_RTO: busy, or the timeout stored (42_sweep_sequencer R322). -/
theorem execSetRto_cases (s : State) :
    (s.busyNow = true ∧ execSetRto s = .next (s.reject .busy)) ∨
    (s.busyNow = false ∧
      execSetRto s = .next (State.complete .ok { s with ssm := { s.ssm with rto := s.host.arg0 } })) := by
  unfold execSetRto
  cases hb : s.busyNow <;> simp

/-- SWEEP_START: busy, too fine, the first ring at once, or the pre-rotation (42_sweep_sequencer R324). -/
theorem execSweepStart_cases (s : State) :
    (s.busyNow = true ∧ execSweepStart s = .next (s.reject .busy)) ∨
    (s.busyNow = false ∧ 100 * Preset.md s.sdu.mscode < s.ssm.rings.toNat ∧
      execSweepStart s = .next (s.reject .resolutionTooFine)) ∨
    (s.busyNow = false ∧ s.ssm.rings.toNat ≤ 100 * Preset.md s.sdu.mscode ∧ s.ssm.prerot = 0 ∧
      execSweepStart s = .next (State.complete .ok (sweepPrepare s).enterRingWait)) ∨
    (s.busyNow = false ∧ s.ssm.rings.toNat ≤ 100 * Preset.md s.sdu.mscode ∧ s.ssm.prerot ≠ 0 ∧
      execSweepStart s = .next (State.complete .ok
        (((sweepPrepare s).startTurn .cw (s.ssm.prerot.setWidth 64) .seq).setSeqState .prerot))) := by
  unfold execSweepStart
  split
  · exact .inl ⟨by assumption, rfl⟩
  · rename_i hb
    have hb : s.busyNow = false := by simpa using hb
    split
    · exact .inr (.inl ⟨hb, by assumption, rfl⟩)
    · rename_i h
      split
      · exact .inr (.inr (.inl ⟨hb, not_lt.1 h, by assumption, rfl⟩))
      · exact .inr (.inr (.inr ⟨hb, not_lt.1 h, by assumption, rfl⟩))

/-- RING_DONE: an advance from RING_WAIT, else a rejection (42_sweep_sequencer R325). -/
theorem execRingDone_cases (s : State) :
    (s.ssm.state = .ringWait ∧ execRingDone s =
      .next (State.complete .ok
        ((s.countRing.startTurn .cw (s.ssm.spring.setWidth 64) .seq).setSeqState .advance))) ∨
    (s.ssm.state ≠ .ringWait ∧ execRingDone s = .next (s.reject .notInRingWait)) := by
  unfold execRingDone
  split
  · exact .inl ⟨by assumption, rfl⟩
  · exact .inr ⟨by assumption, rfl⟩

/-- SWEEP_CANCEL in each state of the sequencer (42_sweep_sequencer R326). -/
theorem execSweepCancel_cases (s : State) :
    (s.ssm.state = .idle ∧ execSweepCancel s = .next (s.reject .noSweep)) ∨
    (s.ssm.state = .ringWait ∧ execSweepCancel s = .next (State.complete .ok (s.enterReturn .cancelled))) ∨
    ((s.ssm.state = .prerot ∨ s.ssm.state = .advance) ∧
      execSweepCancel s = .next (State.complete .ok s.requestCancel)) ∨
    (s.ssm.state = .returning ∧ execSweepCancel s = .next (State.complete .ok s)) := by
  unfold execSweepCancel
  split
  · exact .inl ⟨by assumption, rfl⟩
  · exact .inr (.inl ⟨by assumption, rfl⟩)
  · exact .inr (.inr (.inl ⟨.inl (by assumption), rfl⟩))
  · exact .inr (.inr (.inl ⟨.inr (by assumption), rfl⟩))
  · exact .inr (.inr (.inr ⟨by assumption, rfl⟩))

/-- CTU_XFORM: the three results, or a non-finite operand (43_coordinate_transform R382). -/
theorem execCtuXform_cases (s : State) :
    (s.ctuOperandsFinite = true ∧ execCtuXform s = .next (State.complete .ok
      { s with ctu := { s.ctu with x := s.ctuResult .x, y := s.ctuResult .y, z := s.ctuResult .z } })) ∨
    (s.ctuOperandsFinite = false ∧ execCtuXform s = .next (s.reject .ctuNonfinite)) := by
  unfold execCtuXform
  cases h : s.ctuOperandsFinite <;> simp

/-! ## Phases -/

/-- An aligned 32-bit access runs; any other is refused by name (20_memory R104, R105). -/
theorem withAligned_next {a : Addr} {size : Nat} {k : Host.Outcome State Fault Refusal} {t : State}
    (h : withAligned a size k = .next t) : size = 4 ∧ a.toNat % 4 = 0 ∧ k = .next t := by
  unfold withAligned at h
  split at h
  · cases h
  · split at h
    · cases h
    · exact ⟨by omega, by omega, h⟩

/-- Everything the bus phase can do when it answers a next state (10_state R31 phase 3). -/
theorem busPhase_next {acc : Option BusAccess} {s t : State} (h : busPhase acc s = .next t) :
    (acc = none ∧ t = s.setReadData none) ∨
    (∃ a, acc = some (.read a 4) ∧ a.toNat % 4 = 0 ∧ t = s.setReadData (some (s.readWord a))) ∨
    (∃ a v, acc = some (.write a 4 v) ∧ a.toNat % 4 = 0 ∧ a.toNat ≠ Reg.addr .cmd ∧
      t = (s.setReadData none).writeWord a v) ∨
    (∃ a v, acc = some (.write a 4 v) ∧ a.toNat = Reg.addr .cmd ∧
      dispatchCommand v (s.setReadData none) = .next t) := by
  unfold busPhase at h
  split at h
  · cases h; exact .inl ⟨rfl, rfl⟩
  · obtain ⟨rfl, ha, hk⟩ := withAligned_next h
    cases hk; exact .inr (.inl ⟨_, rfl, ha, rfl⟩)
  · obtain ⟨rfl, ha, hk⟩ := withAligned_next h
    split at hk
    · exact .inr (.inr (.inr ⟨_, _, rfl, by assumption, hk⟩))
    · cases hk; exact .inr (.inr (.inl ⟨_, _, rfl, ha, by assumption, rfl⟩))

/-- The dispatch of a CMD write runs the decoded command or rejects the word (30_encoding R152). -/
theorem dispatchCommand_cases (v : Word) (s : State) :
    (∃ i, decode v = .ok i ∧ dispatchCommand v s = exec i (s.setLastcmd v)) ∨
    (∃ e, decode v = .error e ∧ dispatchCommand v s = .next ((s.setLastcmd v).reject .illegalCommand)) := by
  unfold dispatchCommand
  cases h : decode v with
  | ok i => exact .inl ⟨i, rfl, rfl⟩
  | error e => exact .inr ⟨e, rfl, rfl⟩

/-- A cycle that answers a next state is a reset cycle, or its phases in their order (10_state R31). -/
theorem cycle_next {c : CycleInput} {s t : State} (h : cycle c s = .next t) :
    (c.rst = true ∧ t = resetCycle c s) ∨
    (c.rst = false ∧ ∃ b, busPhase c.access (ticks s) = .next b ∧ t = afterBus c.rx b) := by
  unfold cycle at h
  split at h
  · cases h; exact .inl ⟨by assumption, rfl⟩
  · split at h
    · cases h; exact .inr ⟨by simp_all, _, by assumption, rfl⟩
    · cases h
    · cases h

/-- A step is a cycle with the head of `inputs`, or with an idle environment after its end. -/
theorem step_eq (s : State) :
    step s = cycle (s.inputs.headD CycleInput.idle) { s with inputs := s.inputs.tail } := by
  obtain ⟨_, _, _, _, _, _, _, inputs, _⟩ := s
  cases inputs <;> rfl

/-- Everything a step can do when it answers a next state. -/
theorem step_next {s t : State} (h : step s = .next t) :
    ((s.inputs.headD CycleInput.idle).rst = true ∧
      t = resetCycle (s.inputs.headD CycleInput.idle) { s with inputs := s.inputs.tail }) ∨
    ((s.inputs.headD CycleInput.idle).rst = false ∧
      ∃ b, busPhase (s.inputs.headD CycleInput.idle).access (ticks { s with inputs := s.inputs.tail }) = .next b ∧
        t = afterBus (s.inputs.headD CycleInput.idle).rx b) := by
  rw [step_eq] at h
  exact cycle_next h

/-- The RX phase appends the byte, drops it with RX_OVERFLOW, or has none (40_packet_validator R200). -/
theorem rxPhase_cases (rx : Option Byte) (s : State) :
    (rx = none ∧ rxPhase rx s = s) ∨
    (∃ b, rx = some b ∧ s.pvu.rxq.length < s.params.rxqDepth ∧
      rxPhase rx s = { s with pvu := { s.pvu with rxq := s.pvu.rxq ++ [b] } }) ∨
    (∃ b, rx = some b ∧ s.params.rxqDepth ≤ s.pvu.rxq.length ∧
      rxPhase rx s = (s.setErr .rxOverflow).pend .rxOverflow) := by
  unfold rxPhase
  cases rx with
  | none => exact .inl ⟨rfl, rfl⟩
  | some b =>
    dsimp only
    split
    · exact .inr (.inl ⟨b, rfl, by assumption, rfl⟩)
    · exact .inr (.inr ⟨b, rfl, by omega, rfl⟩)

/-- The free result of the general case meets the conditions of R381, whatever the implementation's function is
(43_coordinate_transform R381; notes/assumptions/9.md). -/
theorem ctuGeneral_admits (eps : ℚ) (rho phi theta off : F64) (c : CtuComp) :
    CtuAdmits eps rho phi theta off c (ctuGeneral eps rho phi theta off c) := Subtype.property _

/-- The level phase sets RX_READY or not, and then the lines (10_state R31 phase 5). -/
theorem levelPhase_cases (s : State) :
    (PKT_LEN ≤ s.pvu.rxq.length ∧ levelPhase s = latchLines (s.pend .rxReady)) ∨
    (s.pvu.rxq.length < PKT_LEN ∧ levelPhase s = latchLines s) := by
  unfold levelPhase sampleRxReady
  split
  · exact .inl ⟨by assumption, rfl⟩
  · exact .inr ⟨by omega, rfl⟩

end Sys2Proof.Machine
end

