-- ==== Sys2Proof/Tests/Slice0.lean ====
section
/-! SUPPORT. Tests: the smoke tests of WellFormed, one decoded word per command, at most two tests per command with
their results taken from spec/95_test_vectors.md (each comment names the vector) or from the rule's example, and
for every statement with hypotheses a witness that meets them. -/

namespace Sys2Proof.Tests

open Sys2Proof Sys2Proof.Machine

-- One theorem after the other: their kernel evaluations queue up otherwise, a thread for each.
set_option Elab.async false

/-! ## Helpers -/

/-- A field of the next state, if there is one. -/
def after {α : Type} (o : Host.Outcome State Fault Refusal) (f : State → α) : Option α :=
  match o with
  | .next t => some (f t)
  | .fault _ => none
  | .refused _ => none

/-- Reset with ARG0 and ARG1 written. -/
def withArgs (a0 a1 : Word) : State := { State.reset with host := { State.reset.host with arg0 := a0, arg1 := a1 } }

/-- Reset with SDU_STATE replaced. -/
def withSdu (q : SduState) : State := { State.reset with sdu := { State.reset.sdu with state := q } }

/-- Reset with SEQ_STATE replaced. -/
def withSeq (q : SeqState) : State := { State.reset with ssm := { State.reset.ssm with state := q } }

/-- Reset with the given bytes in RXQ. -/
def withRxq (q : List Byte) : State := { State.reset with pvu := { State.reset.pvu with rxq := q } }

/-- Reset with the given PKTBUF. -/
def withBuf (m : Memory) : State := { State.reset with pvu := { State.reset.pvu with pktbuf := m } }

/-- Reset with the CTU operands written. -/
def withPoint (r p t o : F64) : State :=
  { State.reset with ctu := { State.reset.ctu with rho := r, phi := p, theta := t, offset := o } }

/-- Reset with POS and CORR replaced. -/
def withPos (p : DWord) (c : F64) : State := { State.reset with sdu := { State.reset.sdu with pos := p, corr := c } }

/-- Reset with the next cycle's input. -/
def withIn (a : Option BusAccess) (rx : Option Byte) : State := State.reset.withNextInput ⟨false, a, rx⟩

/-- Packet Z of 95_test_vectors 2.1 as a buffer: 54 2C, 44 zero bytes, BE. -/
def bufZ : Memory := [(0, 0x54), (1, 0x2C), (46, 0xBE)]

/-- Packet Z as bytes. -/
def bytesZ : List Byte := [0x54, 0x2C] ++ List.replicate 44 0x00 ++ [0xBE]

/-- A sweep waiting for its first ring, as SWEEP_START leaves it on the reset state (95 SS-12). -/
def ringWaiting : State :=
  { State.reset with
    host := { State.reset.host with irqPend := 0b0000100 }
    ssm := { State.reset.ssm with state := .ringWait, spring := 1 } }

/-! ## WellFormed: an ill-formed term for each check, and a well-formed one -/

theorem test_word_mbz_refused : commandWordWellFormed 0x00000120#32 = false := by decide
theorem test_word_opc_refused : commandWordWellFormed 0x00000012#32 = false := by decide
theorem test_word_accepted : commandWordWellFormed 0x00000035#32 = true := by decide
theorem test_read_width_refused : BusAccess.wellFormed (.read 0x000 2) = false := by decide
theorem test_read_align_refused : BusAccess.wellFormed (.read 0x002 4) = false := by decide
theorem test_write_width_refused : BusAccess.wellFormed (.write 0x008 1 0) = false := by decide
theorem test_write_align_refused : BusAccess.wellFormed (.write 0x009 4 0) = false := by decide
theorem test_input_refused : CycleInput.wellFormed ⟨false, some (.read 0x001 4), none⟩ = false := by decide
theorem test_input_accepted : CycleInput.wellFormed ⟨false, some (.read 0xFFC 4), some 0⟩ = true := by decide
theorem test_params_fclk_refused : Params.wellFormed { defaultParams with fclk := 0 } = false := by decide +kernel
theorem test_params_depth_refused : Params.wellFormed { defaultParams with rxqDepth := 46 } = false := by decide +kernel
theorem test_params_table_refused : Params.wellFormed { defaultParams with crcTable := [] } = false := by decide +kernel
/-- 20_memory R109: the map is relative to P_BASE, which no rule reads. -/
theorem test_base : Reg.hostAddr { defaultParams with base := 0x40000000 } .irqPend = 0x40000020 ∧
    after (step { State.reset with params := { defaultParams with base := 0x40000000 } }) (·.host) =
      after (step State.reset) (·.host) := by decide +kernel

theorem test_params_accepted : Params.wellFormed defaultParams = true := by decide +kernel
theorem test_pkt_load_refused : HostStmt.wellFormed (.pseudo (.pktLoad [0x54])) = false := by decide
theorem test_pkt_load_accepted : HostStmt.wellFormed (.pseudo (.pktLoad bytesZ)) = true := by decide +kernel

/-! ## Decode: every command's word, written out from 30_encoding R151 and R156; illegal words of R157 -/

theorem test_decode_nop : decode 0b00000000000000000000000000000000#32 = .ok .nop := by decide
theorem test_decode_pkt_read : decode 0b00000000000000000000000000010000#32 = .ok .pktRead := by decide
theorem test_decode_pkt_check : decode 0b00000000000000000000000000010001#32 = .ok .pktCheck := by decide
theorem test_decode_set_res : decode 0b00000000000000000000000000100000#32 = .ok .setRes := by decide
theorem test_decode_set_speed : decode 0b00000000000000000000000000100001#32 = .ok .setSpeed := by decide
theorem test_decode_set_corr : decode 0b00000000000000000000000000100010#32 = .ok .setCorr := by decide
theorem test_decode_turn : decode 0b00000000000000000000000000100011#32 = .ok .turn := by decide
theorem test_decode_set_rings : decode 0b00000000000000000000000000110000#32 = .ok .setRings := by decide
theorem test_decode_set_prerot : decode 0b00000000000000000000000000110001#32 = .ok .setPrerot := by decide
theorem test_decode_set_rto : decode 0b00000000000000000000000000110010#32 = .ok .setRto := by decide
theorem test_decode_sweep_start : decode 0b00000000000000000000000000110011#32 = .ok .sweepStart := by decide
theorem test_decode_ring_done : decode 0b00000000000000000000000000110100#32 = .ok .ringDone := by decide
theorem test_decode_sweep_cancel : decode 0b00000000000000000000000000110101#32 = .ok .sweepCancel := by decide
theorem test_decode_ctu_xform : decode 0b00000000000000000000000001000000#32 = .ok .ctuXform := by decide
/-- R411's example: an illegal word is never partly decoded. -/
theorem test_decode_mbz : decode 0x00000120#32 = .error .mbzNonZero := by decide
theorem test_decode_gap : decode 0x00000036#32 = .error (.unassignedOpcode 0x36) := by decide
theorem test_table_word : decodeTableWord 32 0x40 = some .ctuXform := by decide
theorem test_fetch_word : after (step (State.reset.withFetchWord 32 0x33)) (·.ssm.state) = some .ringWait := by
  decide +kernel

/-! ## Commands -/

/-- 44_general R410's example: after a rejection NOP clears RESULT and leaves ERR. -/
theorem test_nop_keeps_err : after (exec .nop (State.reset.reject .invalidSpeed)) (fun t => (t.host.result, t.host.err)) =
    some (.ok, 1) := by decide
/-- 95 PV-R5: an empty RXQ. -/
theorem test_pkt_read_empty : after (exec .pktRead State.reset) (fun t => (t.host.result, t.pvu.pktErrCnt)) =
    some (.pktLength, 1) := by decide +kernel
/-- 95 PV-C1's packet from the stream, one byte of the next packet behind it. -/
theorem test_pkt_read_accepts : after (exec .pktRead (withRxq (bytesZ ++ [0x54])))
    (fun t => (t.host.result, t.pvu.pktOkCnt, t.pvu.rxq, t.pvu.pktbuf)) = some (.ok, 1, [0x54], bufZ) := by
  decide +kernel
/-- 95 PV-C1. -/
theorem test_pkt_check_accepts : after (exec .pktCheck (withBuf bufZ)) (fun t => (t.host.result, t.pvu.pktValid)) =
    some (.ok, true) := by decide +kernel
/-- 95 PV-C4: the checksum byte is BF. -/
theorem test_pkt_check_crc : after (exec .pktCheck (withBuf [(0, 0x54), (1, 0x2C), (46, 0xBF)])) (·.host.result) =
    some .pktCrc := by decide +kernel
/-- 95 SD-R4. -/
theorem test_set_res_sixteenth : after (exec .setRes (withArgs 4 0)) (·.resWord) = some 0x00071004 := by decide +kernel
/-- 95 SD-R5. -/
theorem test_set_res_refused : after (exec .setRes (withArgs 5 0)) (fun t => (t.host.result, t.resWord)) =
    some (.invalidResolution, 0x00000100) := by decide +kernel
/-- 95 SD-S3. -/
theorem test_set_speed_max : after (exec .setSpeed (withArgs 4500 0)) (·.sdu.speed) = some 4500 := by decide
/-- 95 SD-S4. -/
theorem test_set_speed_refused : after (exec .setSpeed (withArgs 4501 0)) (fun t => (t.host.result, t.sdu.speed)) =
    some (.invalidSpeed, 1000) := by decide
/-- 95 SD-C1. -/
theorem test_set_corr : after (exec .setCorr (withArgs 0x851EB852 0x3FF051EB)) (·.sdu.corr) =
    some 0x3FF051EB851EB852 := by decide +kernel
/-- 95 SD-C6: -1.0. -/
theorem test_set_corr_negative : after (exec .setCorr (withArgs 0 0xBFF00000)) (·.host.result) = some .invalidCorr := by
  decide +kernel
/-- 95 SD-T2. -/
theorem test_turn : after (exec .turn (withArgs 3 0xFFFFFFFE)) (fun t => (t.sdu.turnDir, t.sdu.half, t.sdu.turnN)) =
    some (.cw, 2500, 3) := by decide +kernel
/-- 95 SD-T1. -/
theorem test_turn_zero : after (exec .turn (withArgs 0 0)) (fun t => (t.host.result, t.sdu.state)) =
    some (.stepsTooSmall, .idle) := by decide
/-- 95 SS-1. -/
theorem test_set_rings_zero : after (exec .setRings (withArgs 0 0)) (fun t => (t.host.result, t.ssm.rings)) =
    some (.invalidRings, 100) := by decide
/-- 95 SS-4. -/
theorem test_set_rings_fine : after (exec .setRings (withArgs 101 0)) (fun t => (t.host.result, t.ssm.rings)) =
    some (.resolutionTooFine, 100) := by decide
/-- 42_sweep_sequencer R321's example. -/
theorem test_set_prerot : after (exec .setPrerot (withArgs 4 0)) (·.ssm.prerot) = some 4 := by decide
/-- 42_sweep_sequencer R322's example. -/
theorem test_set_rto : after (exec .setRto (withArgs 2000000 0)) (·.ssm.rto) = some 2000000 := by decide
/-- 95 SS-12, its STATUS read in the next cycle. -/
theorem test_sweep_start : after (exec .sweepStart State.reset)
    (fun t => (t.ssm.spring, t.host.irqPend, t.statusWord)) = some (1, 0x04, 0x00002006) := by decide +kernel
/-- 95 SS-7. -/
theorem test_sweep_start_fine : after (exec .sweepStart
    { State.reset with ssm := { State.reset.ssm with rings := 1600 } }) (fun t => (t.host.result, t.ssm.state)) =
    some (.resolutionTooFine, .idle) := by decide
/-- 42_sweep_sequencer R325's example: RING_IDX 0 and SPRING 8. -/
theorem test_ring_done : after (exec .ringDone
    { State.reset with ssm := { State.reset.ssm with state := .ringWait, spring := 8 } })
    (fun t => (t.ssm.ringIdx, t.sdu.turnN, t.sdu.turnDir)) = some (1, 8, .cw) := by decide +kernel
/-- 95 SS-10. -/
theorem test_ring_done_idle : after (exec .ringDone State.reset) (·.host.result) = some .notInRingWait := by decide
/-- 95 SS-14. -/
theorem test_sweep_cancel : after (exec .sweepCancel ringWaiting)
    (fun t => (t.host.result, t.ssm.state, t.ssm.seqEnd, t.host.irqPend)) = some (.ok, .idle, .cancelled, 0x06) := by
  decide
/-- 95 SS-11. -/
theorem test_sweep_cancel_idle : after (exec .sweepCancel State.reset) (·.host.result) = some .noSweep := by decide
/-- 95 CT-1, one of its exact results. -/
theorem test_ctu_exact : after (exec .ctuXform (withPoint 0x4000000000000000 0x4056800000000000 0 0)) (·.ctu.x) =
    some 0x4000000000000000 := by decide +kernel
/-- 95 CT-21: THETA is a NaN. -/
theorem test_ctu_nan : after (exec .ctuXform (withPoint 0 0 0x7FF8000000000001 0)) (fun t => (t.host.result, t.ctu.x)) =
    some (.ctuNonfinite, 0) := by decide +kernel

/-! ## Computed values and the cycle -/

/-- 40_packet_validator R203: the table of the rule's listing against the rule's generator, in two places. -/
theorem test_crc_table : defaultCrcTable.getD 0x54 0 = 0xEE ∧ defaultCrcTable.getD 0xFF 0 = 0xA8 := by decide +kernel
/-- 95 PV-K3. -/
theorem test_crc_z : crc8 defaultCrcTable (bytesZ.take 46) = 0xBE := by decide +kernel
/-- 95 AN-13. -/
theorem test_angle_corr : (withPos 8 0x3FF051EB851EB852).angle = 0x3FED604189374BC7 := by decide +kernel
/-- 95 AN-3: a negative angle. -/
theorem test_angle_negative : (withPos (-1) 0x3FF0000000000000).angle = 0xBFBCCCCCCCCCCCCD := by decide +kernel
/-- 95 AN-14 and AN-15: the stop test on both sides of 180 degrees. -/
theorem test_angle_reached : (withPos 1568 0x3FF051EB851EB852).angleReached = false ∧
    (withPos 1576 0x3FF051EB851EB852).angleReached = true := by decide +kernel
/-- 70_reset_and_hazards R505's hold times and 42_sweep_sequencer R334's SPRING for RINGS 8 and 40. -/
theorem test_hold_and_spring : halfPeriod 1000000 16 4500 = 35 ∧ stepsPerRing 1 8 = 12 ∧ stepsPerRing 1 40 = 2 := by
  decide +kernel
/-- The example of notes/assumptions/29.md, calculated by hand from R323 and R272: 6 rings of 17 full steps reach 180
degrees and 5 do not. -/
theorem test_six_rings : stepsPerRing 1 6 = 17 ∧ (withPos (5 * 17 * 16) 0x3FF0000000000000).angleReached = false ∧
    (withPos (6 * 17 * 16) 0x3FF0000000000000).angleReached = true := by decide +kernel
/-- 95 PV-X4: RX_OVERFLOW survives a W1C of the same cycle. -/
theorem test_overflow_survives : after (step
    { withRxq (List.replicate 256 0) with inputs := [⟨false, some (.write 0x018 4 0x4), some 0x11⟩] })
    (fun t => (t.host.err, t.pvu.rxq.length)) = some (4, 256) := by decide +kernel
/-- 95 GN-8: the IRQ line after a rejection with IRQ_EN = 0x40. -/
theorem test_irq_line : after (step
    { State.reset with
      host := { State.reset.host with irqEn := 0x40 }, inputs := [⟨false, some (.write 0x004 4 0xFF), none⟩] })
    (·.lines.irq) = some true := by decide +kernel
/-- 20_memory R104: an 8-bit access is refused by name. -/
theorem test_refused_width : step (withIn (some (.read 0x000 1)) none) = .refused (.accessWidth 1) := rfl
/-- 10_state R37. -/
theorem test_read_id : after (step (withIn (some (.read 0x000 4)) none)) (·.readData) = some (some 0x41454753) := by
  decide +kernel

/-! ## Witnesses: states and operands that meet the hypotheses of the statements, clause by clause -/

theorem test_witness_IllegalWordIsRejectedWithoutEffect :
    (0x00000120#32).toNat / 256 ≠ 0 ∧ (0x00000100#32).toNat / 256 ≠ 0 ∧ (0xFFFFFFFF#32).toNat / 256 ≠ 0 ∧
    (0x01#32).toNat % 256 ∉
      ([0x00, 0x10, 0x11, 0x20, 0x21, 0x22, 0x23, 0x30, 0x31, 0x32, 0x33, 0x34, 0x35, 0x40] : List Nat) ∧
    (0xFF#32).toNat % 256 ∉
      ([0x00, 0x10, 0x11, 0x20, 0x21, 0x22, 0x23, 0x30, 0x31, 0x32, 0x33, 0x34, 0x35, 0x40] : List Nat) := by
  decide

theorem test_witness_StepRunsDecodedCommand :
    ∃ (s : State) (v : Word) (i : Instr) (t : State),
      s.nextInput.rst = false ∧ s.nextInput.access = some (.write 0x004#12 4 v) ∧ decode v = .ok i ∧
      i.wellFormed = true ∧
      exec i { s.atBusPhase with
        host := { s.atBusPhase.host with lastcmd := v.setWidth 8 }, readData := none } = .next t :=
  ⟨withIn (some (.write 0x004 4 0x10)) none, 0x10, .pktRead, _, rfl, rfl, rfl, rfl, rfl⟩

theorem test_witness_CycleRunsItsPhasesOrRefusesTheAccess :
    (∃ (s s1 s2 b : State) (done : Bool), s.nextInput.rst = false ∧
      sduTick { s with inputs := s.inputs.tail } = (s1, done) ∧ ssmTick done s1 = s2 ∧
      busPhase s.nextInput.access s2 = .next b) ∧
    ((withIn (some (.read 0xFFC 2)) none).nextInput.access = some (.read 0xFFC 2) ∧ (2 : Nat) ≠ 4) ∧
    ((withIn (some (.write 0x001 4 0)) none).nextInput.access = some (.write 0x001 4 0) ∧
      (0x001#12).toNat % 4 ≠ 0) ∧
    ((withIn (some (.write 0xFFF 4 0)) none).nextInput.access = some (.write 0xFFF 4 0) ∧
      (0xFFF#12).toNat % 4 ≠ 0) :=
  ⟨⟨withIn (some (.write 0x008 4 7)) none, _, _, _, _, rfl, rfl, rfl, rfl⟩, ⟨rfl, by decide⟩, ⟨rfl, by decide⟩,
    ⟨rfl, by decide⟩⟩

theorem test_witness_ResetCycleResetsEverything :
    (State.reset.withNextInput ⟨true, some (.read 0x000 4), some 0x54⟩).nextInput.rst = true ∧
    (State.reset.withNextInput ⟨true, some (.read 0x000 4), some 0x54⟩).nextInput.access =
      some (.read 0x000 4) := by decide +kernel

theorem test_witness_ReadReturnsValueAndChangesNothing :
    (0x434#12).toNat % 4 = 0 ∧ Reg.addr .zHi = (0x434#12).toNat ∧ Reg.addr .id = (0x000#12).toNat ∧
    (∀ r, Reg.addr r ≠ (0x438#12).toNat) ∧ (∀ r, Reg.addr r ≠ (0x028#12).toNat) := by
  refine ⟨by decide, by decide, by decide, fun r => ?_, fun r => ?_⟩ <;> cases r <;> simp [Reg.addr] <;> omega

theorem test_witness_UnmappedReadsZeroAndIgnoresWrites :
    (0x028#12).toNat % 4 = 0 ∧ mappedAddress (0x028#12).toNat = false ∧ mappedAddress (0x12C#12).toNat = false ∧
    mappedAddress (0x438#12).toNat = false ∧ (0xFFC#12).toNat % 4 = 0 ∧ mappedAddress (0xFFC#12).toNat = false := by
  decide

theorem test_witness_ErrSwphaseAndReadOnlyWrites :
    Reg.hostWrites .id = false ∧ (0x000#12).toNat = Reg.addr .id ∧ Reg.hostWrites .zHi = false ∧
    (0x434#12).toNat = Reg.addr .zHi ∧ Reg.hostWrites (.sample 11) = false ∧
    (0x1AC#12).toNat = Reg.addr (.sample 11) := by decide

theorem test_witness_PktbufWriteStoresItsBytes :
    Memory.wf bufZ = true ∧ (0x140#12).toNat = 0x140 + 4 * (0 : Fin 12).val ∧
    (0x16C#12).toNat = 0x140 + 4 * (11 : Fin 12).val ∧ 4 * (11 : Fin 12).val + 2 ≤ 46 := by decide

theorem test_witness_ComputedRegistersShowTheState :
    ∀ j, j < 47 → Memory.read (withBuf bufZ).pvu.pktbuf j = bytesZ.getD j 0 := by decide +kernel

theorem test_witness_RejectionChangesOnlyItsRecord :
    after (dispatchCommand 0x34 State.reset) (·.host.result.isRejection) = some true ∧
    after (dispatchCommand 0xFFFFFFFF State.reset) (·.host.result.isRejection) = some true := by decide

theorem test_witness_OutcomeCodesHaveTheirCauses :
    after (exec .pktRead State.reset) (·.host.result.isRejection) = some false ∧
    after (exec .setRes (withArgs 5 0)) (·.host.result.isRejection) = some true := by decide +kernel

theorem test_witness_BusyRejectsMotionAndConfiguration :
    (withSdu .setup).sdu.state ≠ .idle ∧ (withSeq .ringWait).ssm.state ≠ .idle ∧
    Instr.sweepStart ∈ ([.setRes, .setSpeed, .setCorr, .turn, .setRings, .setPrerot, .setRto, .sweepStart] :
      List Instr) ∧
    Instr.nop ∈ ([.nop, .pktRead, .pktCheck, .ringDone, .sweepCancel, .ctuXform] : List Instr) := by decide

theorem test_witness_PktReadTakesAndValidatesOnePacket :
    Memory.wf (withRxq bytesZ).pvu.pktbuf = true ∧
    after (exec .pktRead (withRxq bytesZ)) (·.pvu.pktLast) = some .ok ∧
    after (exec .pktRead (withRxq (bytesZ.take 46))) (·.pvu.pktLast) = some .length := by decide +kernel

theorem test_witness_DefaultTableGivesZeroOverWholePackets :
    validate defaultParams.crcTable bufZ 47 = .ok := by decide +kernel

theorem test_witness_SingleBitFlipIsAlwaysDetected :
    Memory.wf bufZ = true ∧ validate defaultParams.crcTable bufZ 47 = .ok ∧
    validate defaultParams.crcTable (Memory.write bufZ 0 (Memory.read bufZ 0 ^^^ (1#8 <<< 7))) 47 = .sentinel ∧
    validate defaultParams.crcTable (Memory.write bufZ 45 (Memory.read bufZ 45 ^^^ (1#8 <<< 0))) 47 = .crc := by
  decide +kernel

theorem test_witness_ResyncRecoversAllLaterPackets :
    (List.replicate 47 (0 : Byte)).length = 47 ∧ ¬goodPacket defaultParams.crcTable (List.replicate 47 0) ∧
    (∀ p ∈ [bytesZ], goodPacket defaultParams.crcTable p) ∧
    (withRxq (List.replicate 47 0 ++ [bytesZ].flatten)).pvu.rxq = List.replicate 47 0 ++ [bytesZ].flatten ∧
    Memory.wf (withRxq (List.replicate 47 0 ++ [bytesZ].flatten)).pvu.pktbuf = true := by
  unfold goodPacket; decide +kernel

theorem test_witness_ReceivedByteIsQueuedOrDropped :
    (withRxq (List.replicate 255 0)).pvu.rxq.length < (withRxq (List.replicate 255 0)).params.rxqDepth ∧
    (withRxq (List.replicate 256 0)).params.rxqDepth ≤ (withRxq (List.replicate 256 0)).pvu.rxq.length := by
  decide +kernel

theorem test_witness_ByteOfTheSameCycleIsNotSeen :
    State.reset.pvu.rxq.length ≤ State.reset.params.rxqDepth ∧ 1 ≤ State.reset.params.rxqDepth ∧
    (withRxq (List.replicate 256 0)).pvu.rxq.length ≤ (withRxq (List.replicate 256 0)).params.rxqDepth := by
  decide +kernel

theorem test_witness_PresetsHaveTheirCodesAndSelectors : State.reset.params.msTable = defaultMsTable := by decide

theorem test_witness_SetResSelectsPreset :
    (withSdu .low).busyNow = true ∧ (withArgs 5 0).busyNow = false ∧ 4 < (withArgs 5 0).host.arg0.toNat ∧
    (withArgs 4 0).busyNow = false ∧ (withArgs 4 0).host.arg0.toNat ≤ 4 := by decide

theorem test_witness_SetSpeedStoresLegalSpeed :
    (withSeq .advance).busyNow = true ∧ (withArgs 0 0).busyNow = false ∧ (withArgs 0 0).host.arg0.toNat = 0 ∧
    4500 < (withArgs 4501 0).host.arg0.toNat ∧ 1 ≤ (withArgs 1 0).host.arg0.toNat ∧
    (withArgs 4500 0).host.arg0.toNat ≤ 4500 := by decide

theorem test_witness_SetCorrStoresPositiveFactor :
    (withSdu .high).busyNow = true ∧ (withArgs 0 0).busyNow = false ∧
    ¬(F64.finite ((0 : Word) ++ (0 : Word)) = true ∧ 0 < F64.toRat ((0 : Word) ++ (0 : Word))) ∧
    F64.finite ((0 : Word) ++ (1 : Word)) = true ∧ 0 < F64.toRat ((0 : Word) ++ (1 : Word)) := by decide +kernel

theorem test_witness_TurnStartsPulseTrain :
    (withSdu .setup).busyNow = true ∧ (withArgs 0 1).busyNow = false ∧ (withArgs 0 1).host.arg0.toNat = 0 ∧
    (withArgs 0xFFFFFFFF 1).busyNow = false ∧ 1 ≤ (withArgs 0xFFFFFFFF 1).host.arg0.toNat := by decide

theorem test_witness_HalfPeriodIsNeverTooShort :
    (1 : Nat) ≤ Preset.md .full ∧ 1 ≤ State.reset.sdu.speed.toNat ∧ halfPeriod 0 1 1 = 1 ∧
    halfPeriod (2 ^ 40) 1 1 = 2 ^ 32 - 1 := by decide +kernel

/-- Reset with SDU_STATE, PH_CNT and REM replaced. -/
def withHold (q : SduState) (p : Word) (r : DWord) : State :=
  { State.reset with sdu := { State.reset.sdu with state := q, phCnt := p, rem := r } }

theorem test_witness_SduTickFollowsTheStateMachine :
    State.reset.sdu.state = .idle ∧ (withSdu .setup).sdu.state = .setup ∧
    ((withHold .high 1 1).sdu.state = .high ∧ (withHold .high 1 1).sdu.phCnt = 1) ∧
    ((withHold .low 2 1).sdu.state = .low ∧ (withHold .low 2 1).sdu.phCnt ≠ 1) ∧
    ((withHold .low 1 2).sdu.state = .low ∧ (withHold .low 1 2).sdu.phCnt = 1 ∧ (withHold .low 1 2).sdu.rem ≠ 1) ∧
    ((withHold .low 1 1).sdu.state = .low ∧ (withHold .low 1 1).sdu.phCnt = 1 ∧
      (withHold .low 1 1).sdu.rem = 1) := by decide

/-- Reset with a turn of n steps with half-period h in SETUP. -/
def turning (n : DWord) (h : Word) : State :=
  { State.reset with sdu := { State.reset.sdu with state := .setup, rem := n, turnN := n, half := h } }

theorem test_witness_TurnTakesItsExactTime :
    (turning 2 1).sdu.state = .setup ∧ (turning 2 1).sdu.stepCnt = 0 ∧ (turning 2 1).sdu.rem.toNat = 2 ∧
    (turning 2 1).sdu.half.toNat = 1 ∧ 3 < 2 * 2 * 1 ∧ (sduTicks 4 (turning 2 1)).sdu.state = .low ∧
    (sduTicks 5 (turning 2 1)).sdu.pos = 32 := by decide +kernel

theorem test_witness_CwThenCcwRestoresPosition :
    State.reset.busyNow = false ∧ 1 ≤ (1 : Word).toNat ∧ 1 ≤ (0xFFFFFFFF : Word).toNat := by decide

theorem test_witness_AngleReachedIsExact : F64.finite (withPos 1600 0x3FF0000000000000).sdu.corr = true := by decide

/-- The angle value of a state, as a rational. -/
def angleValue (s : State) : ℚ := (s.sdu.pos.toInt : ℚ) * 360 * F64.toRat s.sdu.corr / 3200

theorem test_witness_AngleIsRoundedOnce :
    F64.finite (withPos 1 0x3FF0000000000000).sdu.corr = true ∧
    angleValue (withPos 1 0x3FF0000000000000) =
      ((withPos 1 0x3FF0000000000000).sdu.pos.toInt : ℚ) * 360 * F64.toRat (withPos 1 0x3FF0000000000000).sdu.corr /
        3200 ∧
    |angleValue (withPos 1 0x3FF0000000000000)| < 2 ^ 1024 - 2 ^ 970 ∧
    F64.finite (withPos (-32) 0x7FEFFFFFFFFFFFFF).sdu.corr = true ∧
    2 ^ 1024 - 2 ^ 970 ≤ |angleValue (withPos (-32) 0x7FEFFFFFFFFFFFFF)| := by
  refine ⟨by decide, rfl, by decide +kernel, by decide, by decide +kernel⟩

theorem test_witness_MotorStateChangesOnlyAsAllowed :
    after (step { withArgs 1 0 with inputs := [⟨false, some (.write 0x004 4 0x20), none⟩] }) (·.sdu.mscode) =
      some .half ∧
    after (step { withArgs 1 0 with inputs := [⟨false, some (.write 0x004 4 0x21), none⟩] }) (·.sdu.speed) =
      some 1 ∧
    after (step { withArgs 1 0 with inputs := [⟨false, some (.write 0x004 4 0x22), none⟩] }) (·.sdu.corr) =
      some 1 ∧
    after (step { withHold .low 1 1 with inputs := [] }) (·.sdu.state) = some .idle ∧
    after (step { withArgs 1 0 with inputs := [⟨false, some (.write 0x004 4 0x23), none⟩] }) (·.sdu.state) =
      some .setup := by decide +kernel

theorem test_witness_SweepConfigurationCommands :
    (withSeq .returning).busyNow = true ∧ (withArgs 0 0).busyNow = false ∧ (withArgs 0 0).host.arg0.toNat = 0 ∧
    100 * Preset.md (withArgs 101 0).sdu.mscode < (withArgs 101 0).host.arg0.toNat ∧
    1 ≤ (withArgs 100 0).host.arg0.toNat ∧
    (withArgs 100 0).host.arg0.toNat ≤ 100 * Preset.md (withArgs 100 0).sdu.mscode := by decide

theorem test_witness_StepsPerRingIsNearest :
    (1 : Nat) ≤ 8 ∧ (8 : Nat) ≤ 100 * 1 ∧ 2 * (100 * 1) = 2 * (stepsPerRing 1 8 * 8) + 8 ∧ (1600 : Nat) ≤ 100 * 16 ∧
    stepsPerRing 16 1600 = 1 := by decide

theorem test_witness_SweepStartBeginsASweep :
    (withSdu .low).busyNow = true ∧ State.reset.busyNow = false ∧
    100 * Preset.md State.reset.sdu.mscode < (101 : Word).toNat ∧
    State.reset.ssm.rings.toNat ≤ 100 * Preset.md State.reset.sdu.mscode ∧ State.reset.ssm.prerot = 0 ∧
    ({ State.reset with ssm := { State.reset.ssm with prerot := 4 } } : State).ssm.prerot ≠ 0 := by decide

theorem test_witness_RingDoneAdvancesOneRing :
    State.reset.ssm.state ≠ .ringWait ∧ ringWaiting.ssm.state = .ringWait := by decide

theorem test_witness_SweepCancelActsAtRingBoundary :
    State.reset.ssm.state = .idle ∧ ringWaiting.ssm.state = .ringWait ∧ (withSeq .prerot).ssm.state = .prerot ∧
    (withSeq .advance).ssm.state = .advance ∧ (withSeq .returning).ssm.state = .returning := by decide

theorem test_witness_SsmTickFollowsTheStateMachine :
    ({ State.reset with ssm := { State.reset.ssm with sweepAcc := 3 } } : State).ssm.sweepAcc ≠ 0 ∧
    State.reset.ssm.sweepAcc = 0 ∧ State.reset.ssm.state = .idle ∧ (withSeq .prerot).ssm.state = .prerot ∧
    (withSeq .advance).ssm.state = .advance ∧ (withSeq .returning).ssm.state = .returning ∧
    (withSeq .returning).ssm.state ≠ .ringWait := by decide

theorem test_witness_RingTimeoutFiresAfterRtoTicks :
    ringWaiting.ssm.state = .ringWait ∧ ringWaiting.ssm.rtoCnt = 0 ∧ ringWaiting.ssm.rto = 0 ∧
    ({ ringWaiting with ssm := { ringWaiting.ssm with rto := 1 } } : State).ssm.rto ≠ 0 := by decide

/-- A sweep whose ring times out in the coming tick, while the host writes RING_DONE. -/
def timingOut : State :=
  { ringWaiting with
    ssm := { ringWaiting.ssm with rto := 1 }
    inputs := [⟨false, some (.write 0x004 4 0x34), none⟩] }

theorem test_witness_TimeoutBeatsRingDoneOfTheSameCycle :
    timingOut.ssm.state = .ringWait ∧ timingOut.sdu.state = .idle ∧ timingOut.ssm.rto ≠ 0 ∧
    timingOut.ssm.rto.toNat ≤ timingOut.ssm.rtoCnt.toNat + 1 ∧ timingOut.nextInput.rst = false ∧
    timingOut.nextInput.access = some (.write 0x004 4 0x34) ∧
    after (step timingOut) (·.host.result) = some .notInRingWait := by decide +kernel

theorem test_witness_StickyBitsAreClearedOnlyByTheHost :
    after (step { State.reset with
        host := { State.reset.host with err := 7 }, inputs := [⟨false, some (.write 0x018 4 0x1), none⟩] })
      (·.host.err) = some 6 ∧
    after (step { State.reset with
        host := { State.reset.host with irqPend := 0x7F }, inputs := [⟨false, some (.write 0x020 4 0x40), none⟩] })
      (·.host.irqPend) = some 0x3F := by decide +kernel

theorem test_witness_HostRegistersChangeOnlyByTheirWrites :
    (withIn (some (.write 0x01C 4 0x7F)) none).nextInput.rst = false ∧
    after (step (withIn (some (.write 0x01C 4 0x7F)) none)) (·.host.irqEn) = some 0x7F ∧
    after (step { ringWaiting with ssm := { ringWaiting.ssm with rto := 1, ringIdx := 5 } }) (·.ssm.failRing) =
      some 5 := by decide +kernel

theorem test_witness_LinesFollowTheStateEveryCycle :
    (withRxq (List.replicate 46 0)).nextInput.rst = false ∧
    after (step { withRxq (List.replicate 46 0) with inputs := [⟨false, none, some 0x54⟩] })
      (fun t => (t.pvu.rxq.length, t.host.irqPend.getLsbD 4)) = some (47, true) := by decide +kernel

/-- The invariant holds in a state with a sweep running. -/
theorem test_ring_waiting_meets_inv : Inv ringWaiting :=
  ⟨⟨by decide, by decide, by decide, by decide⟩,
    ⟨by decide, ⟨by decide, by decide +kernel⟩, by decide, by decide, by decide, by decide⟩,
    ⟨by decide, by decide, by decide, by decide, by decide, by decide, by decide, by decide, by decide, by decide,
      by decide⟩,
    ⟨by decide, by decide⟩⟩

theorem test_witness_StepKeepsTheInvariant : Inv ringWaiting ∧ ∃ t, step ringWaiting = .next t :=
  ⟨test_ring_waiting_meets_inv, _, rfl⟩

theorem test_witness_SweepReturnsToItsStart :
    Inv ringWaiting ∧ ringWaiting.nextInput.rst = false ∧ ringWaiting.ssm.state ≠ .idle ∧
    posAccounted 0 ringWaiting ∧ ∃ t, step ringWaiting = .next t :=
  ⟨test_ring_waiting_meets_inv, by decide, by decide, by unfold posAccounted; decide, _, rfl⟩

theorem test_ring_waiting_steps : stepsAccounted ringWaiting := by
  show ∃ a : Nat, ringWaiting.ssm.sweepAcc = sweepSteps a ringWaiting ∧ ringWaiting.ssm.ringIdx = BitVec.ofNat 32 a
  exact ⟨0, by decide, by decide⟩

theorem test_witness_SweepKeepsConfigurationAndStepAccount :
    Inv ringWaiting ∧ stepsAccounted ringWaiting ∧ ringWaiting.nextInput.rst = false ∧
    ringWaiting.ssm.state ≠ .idle ∧ ∃ t, step ringWaiting = .next t ∧ t.ssm.state ≠ .idle :=
  ⟨test_ring_waiting_meets_inv, test_ring_waiting_steps, by decide, by decide, _, rfl, by decide⟩

theorem test_witness_CtuXformWritesItsResults :
    F64.finite State.reset.ctu.rho = true ∧ F64.finite State.reset.ctu.phi = true ∧
    F64.finite State.reset.ctu.theta = true ∧ F64.finite State.reset.ctu.offset = true ∧
    ¬(F64.finite (withPoint 0 0 0 0xFFF0000000000000).ctu.rho = true ∧
      F64.finite (withPoint 0 0 0 0xFFF0000000000000).ctu.phi = true ∧
      F64.finite (withPoint 0 0 0 0xFFF0000000000000).ctu.theta = true ∧
      F64.finite (withPoint 0 0 0 0xFFF0000000000000).ctu.offset = true) := by decide

theorem test_witness_CtuMeetsItsExactnessConditions :
    F64.toRat 0x4056800000000000 = 90 * ((1 : Int) : ℚ) ∧ F64.toRat 0xC056800000000000 = 90 * ((-1 : Int) : ℚ) ∧
    F64.isZero 0x8000000000000000 = true := by decide +kernel

/-- The ends of the range, the smallest P_CTU_EPS of the second clause, the two cases of its bound, and operands whose
bound is a smaller one. -/
theorem test_witness_CtuIsAccurateInRange :
    F64.finite 0x43F0000000000000 = true ∧ |F64.toRat 0x43F0000000000000| ≤ 2 ^ 64 ∧
    |F64.toRat 0xC3F0000000000000| ≤ 2 ^ 64 ∧ F64.finite 0x403E000000000000 = true ∧
    (1 / 2 ^ 53 : ℚ) ≤ defaultParams.ctuEps ∧ (1 / 2 ^ 53 : ℚ) ≤ 1 / 2 ^ 53 ∧
    |F64.toRat 0x8000000000000000| + |F64.toRat 0| = 0 ∧
    (1 / 2 ^ 1075 : ℚ) ≤ defaultParams.ctuEps * (|F64.toRat 0x0000008000000000| + |F64.toRat 0|) ∧
    defaultParams.ctuEps * (|F64.toRat 0x0000007FFFFFFFFF| + |F64.toRat 0|) < (1 / 2 ^ 1075 : ℚ) ∧
    F64.finite 0x0000007FFFFFFFFF = true := by decide +kernel

/-- The last two clauses, at rho the smallest subnormal and offset 0: phi = 0 has a pattern within the bound, and
phi = 60, where z is half the smallest subnormal, has none. -/
theorem test_witness_CtuIsAccurateInRange_tiny :
    (∃ b, F64.finite b = true ∧ |(F64.toRat b : ℝ) - (F64.toRat 1 : ℝ) * Real.cos (0 * Real.pi / 180)| ≤
      (defaultParams.ctuEps : ℝ) * (F64.toRat 1 : ℝ)) ∧
    (¬∃ b, F64.finite b = true ∧ |(F64.toRat b : ℝ) - (F64.toRat 1 : ℝ) * Real.cos (60 * Real.pi / 180)| ≤
      (defaultParams.ctuEps : ℝ) * (F64.toRat 1 : ℝ)) := by
  have hu : (0 : ℝ) < (f64Unit : ℝ) := by
    rw [f64Unit, Nat.cast_pow]; exact pow_pos (by norm_num) _
  have h1 : (F64.toRat 1 : ℝ) = 1 / (f64Unit : ℝ) := by
    rw [F64.toRat, show F64.scaled 1 = 1 by decide, Int.cast_one, Rat.cast_div, Rat.cast_one, Rat.cast_natCast]
  have he : (defaultParams.ctuEps : ℝ) = 1 / 2 ^ 40 := by simp [defaultParams]
  refine ⟨⟨1, by decide, ?_⟩, ?_⟩
  · rw [h1, he, zero_mul, zero_div, Real.cos_zero, mul_one, sub_self, abs_zero]
    exact mul_nonneg (by norm_num) (div_nonneg zero_le_one hu.le)
  · rintro ⟨b, -, hb⟩
    have hc : Real.cos (60 * Real.pi / 180) = 1 / 2 := by
      rw [← Real.cos_pi_div_three]; congr 1; ring
    rw [hc, h1, he, F64.toRat, Rat.cast_div, Rat.cast_intCast, Rat.cast_natCast] at hb
    generalize (f64Unit : ℝ) = u at hu hb
    have h2 : (F64.scaled b : ℝ) / u - 1 / u * (1 / 2) = (2 * F64.scaled b - 1) / (2 * u) := by field_simp
    rw [h2, abs_div, abs_of_pos (by positivity : 0 < 2 * u), div_le_iff₀ (by positivity)] at hb
    have h3 : (1 : ℝ) / 2 ^ 40 * (1 / u) * (2 * u) = 2 / 2 ^ 40 := by field_simp
    have h4 : (1 : ℤ) ≤ |2 * F64.scaled b - 1| := Int.one_le_abs (by omega)
    have h5 : (1 : ℝ) ≤ |2 * (F64.scaled b : ℝ) - 1| := by exact_mod_cast h4
    rw [h3] at hb
    norm_num at hb
    linarith

end Sys2Proof.Tests
end

namespace Sys2Proof.Machine

/-! ## sweepPrepare, field by field -/

@[simp] theorem sweepPrepare_host (s : State) : (sweepPrepare s).host = s.host := rfl
@[simp] theorem sweepPrepare_pvu (s : State) : (sweepPrepare s).pvu = s.pvu := rfl
@[simp] theorem sweepPrepare_sdu (s : State) : (sweepPrepare s).sdu = s.sdu := rfl
@[simp] theorem sweepPrepare_ctu (s : State) : (sweepPrepare s).ctu = s.ctu := rfl
@[simp] theorem sweepPrepare_params (s : State) : (sweepPrepare s).params = s.params := rfl
@[simp] theorem sweepPrepare_ssm_rings (s : State) : (sweepPrepare s).ssm.rings = s.ssm.rings := rfl
@[simp] theorem sweepPrepare_ssm_prerot (s : State) : (sweepPrepare s).ssm.prerot = s.ssm.prerot := rfl
@[simp] theorem sweepPrepare_ssm_rto (s : State) : (sweepPrepare s).ssm.rto = s.ssm.rto := rfl
@[simp] theorem sweepPrepare_ssm_spring (s : State) : (sweepPrepare s).ssm.spring =
    BitVec.ofNat 32 (stepsPerRing (Preset.md s.sdu.mscode) s.ssm.rings.toNat) := rfl
@[simp] theorem sweepPrepare_ssm_sweepAcc (s : State) : (sweepPrepare s).ssm.sweepAcc = 0 := rfl
@[simp] theorem sweepPrepare_ssm_cancelPend (s : State) : (sweepPrepare s).ssm.cancelPend = false := rfl
@[simp] theorem sweepPrepare_ssm_seqEnd (s : State) : (sweepPrepare s).ssm.seqEnd = .none := rfl

/-! ## What a command can do

Every command ends in a rejection, which leaves its record only (60_exceptions R441), or does the work of one of its
completing paths and reports a code (R440). `CommandEffect` lists that work, one constructor per path. -/

/-- The work of a command that is not rejected, before it reports its code: from `s`, the command leads to the state
of the third argument. -/
inductive CommandEffect (s : State) : Instr → State → Prop
  | nop : CommandEffect s .nop s
  | pktRead_accept (hv : s.readVerdict = .ok) : CommandEffect s .pktRead { s with pvu := s.acceptPacket }
  | pktRead_discard (hv : s.readVerdict ≠ .ok) :
      CommandEffect s .pktRead { s with pvu := s.discardPacket s.readVerdict }
  | pktCheck : CommandEffect s .pktCheck
      { s with pvu := { s.pvu with pktValid := decide (s.bufferVerdict = .ok), pktLast := s.bufferVerdict } }
  | setRes (p : Preset) (hb : s.busyNow = false) (hp : Preset.ofCode s.arg0Nat = some p) :
      CommandEffect s .setRes { s with sdu := { s.sdu with mscode := p } }
  | setSpeed (hb : s.busyNow = false) (hlo : 1 ≤ s.host.arg0.toNat) (hhi : s.host.arg0.toNat ≤ 4500) :
      CommandEffect s .setSpeed { s with sdu := { s.sdu with speed := s.host.arg0 } }
  | setCorr (hb : s.busyNow = false) (hf : F64.finite s.argF64 = true) (hp : 0 < F64.scaled s.argF64) :
      CommandEffect s .setCorr { s with sdu := { s.sdu with corr := s.argF64 } }
  | turn (hb : s.busyNow = false) (hn : s.host.arg0.toNat ≠ 0) :
      CommandEffect s .turn (s.startTurn s.arg1Dir s.arg0Steps .host)
  | setRings (hb : s.busyNow = false) (hn : s.host.arg0.toNat ≠ 0)
      (hr : s.host.arg0.toNat ≤ 100 * Preset.md s.sdu.mscode) :
      CommandEffect s .setRings { s with ssm := { s.ssm with rings := s.host.arg0 } }
  | setPrerot (hb : s.busyNow = false) :
      CommandEffect s .setPrerot { s with ssm := { s.ssm with prerot := s.host.arg0 } }
  | setRto (hb : s.busyNow = false) : CommandEffect s .setRto { s with ssm := { s.ssm with rto := s.host.arg0 } }
  | sweepStart_ring (hb : s.busyNow = false) (hr : s.ssm.rings.toNat ≤ 100 * Preset.md s.sdu.mscode)
      (hp : s.ssm.prerot = 0) : CommandEffect s .sweepStart (sweepPrepare s).enterRingWait
  | sweepStart_prerot (hb : s.busyNow = false) (hr : s.ssm.rings.toNat ≤ 100 * Preset.md s.sdu.mscode)
      (hp : s.ssm.prerot ≠ 0) : CommandEffect s .sweepStart
        (((sweepPrepare s).startTurn .cw (s.ssm.prerot.setWidth 64) .seq).setSeqState .prerot)
  | ringDone (hs : s.ssm.state = .ringWait) : CommandEffect s .ringDone
      ((s.countRing.startTurn .cw (s.ssm.spring.setWidth 64) .seq).setSeqState .advance)
  | sweepCancel_return (hs : s.ssm.state = .ringWait) : CommandEffect s .sweepCancel (s.enterReturn .cancelled)
  | sweepCancel_request (hs : s.ssm.state = .prerot ∨ s.ssm.state = .advance) :
      CommandEffect s .sweepCancel s.requestCancel
  | sweepCancel_late (hs : s.ssm.state = .returning) : CommandEffect s .sweepCancel s
  | ctuXform (hf : s.ctuOperandsFinite = true) : CommandEffect s .ctuXform
      { s with ctu := { s.ctu with x := s.ctuResult .x, y := s.ctuResult .y, z := s.ctuResult .z } }

/-- Everything a command can do: a rejection, or one of its effects and a result code. -/
theorem exec_cases (i : Instr) (s : State) :
    (∃ c, exec i s = .next (s.reject c)) ∨ ∃ c u, CommandEffect s i u ∧ exec i s = .next (u.complete c) := by
  cases i with
  | nop => exact .inr ⟨_, _, .nop, execNop_eq s⟩
  | pktRead =>
    rcases execPktRead_cases s with ⟨hv, h⟩ | ⟨hv, h⟩
    · exact .inr ⟨_, _, .pktRead_accept hv, h⟩
    · exact .inr ⟨_, _, .pktRead_discard hv, h⟩
  | pktCheck => exact .inr ⟨_, _, .pktCheck, execPktCheck_eq s⟩
  | setRes =>
    rcases execSetRes_cases s with ⟨_, h⟩ | ⟨_, _, h⟩ | ⟨p, hb, hp, h⟩
    · exact .inl ⟨_, h⟩
    · exact .inl ⟨_, h⟩
    · exact .inr ⟨_, _, .setRes p hb hp, h⟩
  | setSpeed =>
    rcases execSetSpeed_cases s with ⟨_, h⟩ | ⟨_, _, h⟩ | ⟨hb, hlo, hhi, h⟩
    · exact .inl ⟨_, h⟩
    · exact .inl ⟨_, h⟩
    · exact .inr ⟨_, _, .setSpeed hb hlo hhi, h⟩
  | setCorr =>
    rcases execSetCorr_cases s with ⟨_, h⟩ | ⟨_, _, h⟩ | ⟨hb, ⟨hf, hp⟩, h⟩
    · exact .inl ⟨_, h⟩
    · exact .inl ⟨_, h⟩
    · exact .inr ⟨_, _, .setCorr hb hf hp, h⟩
  | turn =>
    rcases execTurn_cases s with ⟨_, h⟩ | ⟨_, _, h⟩ | ⟨hb, hn, h⟩
    · exact .inl ⟨_, h⟩
    · exact .inl ⟨_, h⟩
    · exact .inr ⟨_, _, .turn hb hn, h⟩
  | setRings =>
    rcases execSetRings_cases s with ⟨_, h⟩ | ⟨_, _, h⟩ | ⟨_, _, _, h⟩ | ⟨hb, hn, hr, h⟩
    · exact .inl ⟨_, h⟩
    · exact .inl ⟨_, h⟩
    · exact .inl ⟨_, h⟩
    · exact .inr ⟨_, _, .setRings hb hn hr, h⟩
  | setPrerot =>
    rcases execSetPrerot_cases s with ⟨_, h⟩ | ⟨hb, h⟩
    · exact .inl ⟨_, h⟩
    · exact .inr ⟨_, _, .setPrerot hb, h⟩
  | setRto =>
    rcases execSetRto_cases s with ⟨_, h⟩ | ⟨hb, h⟩
    · exact .inl ⟨_, h⟩
    · exact .inr ⟨_, _, .setRto hb, h⟩
  | sweepStart =>
    rcases execSweepStart_cases s with ⟨_, h⟩ | ⟨_, _, h⟩ | ⟨hb, hr, hp, h⟩ | ⟨hb, hr, hp, h⟩
    · exact .inl ⟨_, h⟩
    · exact .inl ⟨_, h⟩
    · exact .inr ⟨_, _, .sweepStart_ring hb hr hp, h⟩
    · exact .inr ⟨_, _, .sweepStart_prerot hb hr hp, h⟩
  | ringDone =>
    rcases execRingDone_cases s with ⟨hs, h⟩ | ⟨_, h⟩
    · exact .inr ⟨_, _, .ringDone hs, h⟩
    · exact .inl ⟨_, h⟩
  | sweepCancel =>
    rcases execSweepCancel_cases s with ⟨_, h⟩ | ⟨hs, h⟩ | ⟨hs, h⟩ | ⟨hs, h⟩
    · exact .inl ⟨_, h⟩
    · exact .inr ⟨_, _, .sweepCancel_return hs, h⟩
    · exact .inr ⟨_, _, .sweepCancel_request hs, h⟩
    · exact .inr ⟨_, _, .sweepCancel_late hs, h⟩
  | ctuXform =>
    rcases execCtuXform_cases s with ⟨hf, h⟩ | ⟨_, h⟩
    · exact .inr ⟨_, _, .ctuXform hf, h⟩
    · exact .inl ⟨_, h⟩

/-- Every command answers a next state in every state. -/
theorem exec_total (i : Instr) (s : State) : ∃ t, exec i s = .next t := by
  rcases exec_cases i s with ⟨c, h⟩ | ⟨c, u, -, h⟩
  · exact ⟨_, h⟩
  · exact ⟨_, h⟩

/-- `exec_cases` for a known next state. -/
theorem exec_next {i : Instr} {s t : State} (h : exec i s = .next t) :
    (∃ c, t = s.reject c) ∨ ∃ c u, CommandEffect s i u ∧ t = u.complete c := by
  rcases exec_cases i s with ⟨c, h'⟩ | ⟨c, u, he, h'⟩
  · exact .inl ⟨c, Host.Outcome.next.inj (h.symm.trans h')⟩
  · exact .inr ⟨c, u, he, Host.Outcome.next.inj (h.symm.trans h')⟩

/-! ### What no command writes -/

/-- The fields that no command writes have the same value in both states. -/
structure CommandFrame (s t : State) : Prop where
  arg0 : t.host.arg0 = s.host.arg0
  arg1 : t.host.arg1 = s.host.arg1
  irqEn : t.host.irqEn = s.host.irqEn
  swphase : t.host.swphase = s.host.swphase
  lastcmd : t.host.lastcmd = s.host.lastcmd
  rho : t.ctu.rho = s.ctu.rho
  phi : t.ctu.phi = s.ctu.phi
  theta : t.ctu.theta = s.ctu.theta
  offset : t.ctu.offset = s.ctu.offset
  lines : t.lines = s.lines
  params : t.params = s.params
  inputs : t.inputs = s.inputs
  readData : t.readData = s.readData
  pos : t.sdu.pos = s.sdu.pos
  phCnt : t.sdu.phCnt = s.sdu.phCnt
  failRing : t.ssm.failRing = s.ssm.failRing

theorem CommandEffect.frame {s u : State} {i : Instr} (h : CommandEffect s i u) : CommandFrame s u := by
  cases h with
  | sweepCancel_return hs =>
    rcases s.enterReturn_cases .cancelled with ⟨_, e⟩ | ⟨_, e⟩ <;> rw [e] <;> constructor <;> rfl
  | _ => constructor <;> rfl

theorem exec_frame {i : Instr} {s t : State} (h : exec i s = .next t) : CommandFrame s t := by
  rcases exec_next h with ⟨c, rfl⟩ | ⟨c, u, he, rfl⟩
  · constructor <;> rfl
  · exact { he.frame with }

/-! ### The sticky bits -/

theorem CommandEffect.err_eq {s u : State} {i : Instr} (h : CommandEffect s i u) : u.host.err = s.host.err := by
  cases h with
  | sweepCancel_return hs => exact s.enterReturn_host_err .cancelled
  | _ => rfl

/-- Of IRQ_PEND, SWEEP_START can set RING_REQ and SWEEP_CANCEL can set SWEEP_DONE (60_exceptions R445). -/
theorem CommandEffect.irqPend_cases {s u : State} {i : Instr} (h : CommandEffect s i u) :
    u.host.irqPend = s.host.irqPend ∨
    (i = .sweepStart ∧ u.host.irqPend = s.host.irqPend ||| IrqSource.bit .ringReq) ∨
    (i = .sweepCancel ∧ u.host.irqPend = s.host.irqPend ||| IrqSource.bit .sweepDone) := by
  cases h with
  | sweepStart_ring => exact .inr (.inl ⟨rfl, rfl⟩)
  | sweepCancel_return hs =>
    rcases s.enterReturn_cases .cancelled with ⟨_, e⟩ | ⟨_, e⟩
    · exact .inr (.inr ⟨rfl, by rw [e]; rfl⟩)
    · exact .inl (by rw [e]; rfl)
  | _ => exact .inl rfl

/-- Of ERR a command can set CMD_REJECT only (60_exceptions R441). -/
theorem exec_err_cases {i : Instr} {s t : State} (h : exec i s = .next t) :
    t.host.err = s.host.err ∨ t.host.err = s.host.err ||| ErrBit.bit .cmdReject := by
  rcases exec_next h with ⟨c, rfl⟩ | ⟨c, u, he, rfl⟩
  · exact .inr rfl
  · exact .inl he.err_eq

/-- The interrupt sources a command can set. -/
theorem exec_irqPend_cases {i : Instr} {s t : State} (h : exec i s = .next t) :
    t.host.irqPend = s.host.irqPend ∨ ∃ src, t.host.irqPend = s.host.irqPend ||| IrqSource.bit src ∧
      (src = .cmdReject ∨ (i = .sweepStart ∧ src = .ringReq) ∨ (i = .sweepCancel ∧ src = .sweepDone)) := by
  rcases exec_next h with ⟨c, rfl⟩ | ⟨c, u, he, rfl⟩
  · exact .inr ⟨_, rfl, .inl rfl⟩
  · rcases he.irqPend_cases with h | ⟨hi, h⟩ | ⟨hi, h⟩
    · exact .inl h
    · exact .inr ⟨_, h, .inr (.inl ⟨hi, rfl⟩)⟩
    · exact .inr ⟨_, h, .inr (.inr ⟨hi, rfl⟩)⟩

theorem ErrBit.getLsbD_cmdReject {k : Nat} (hk : k ≠ 0) : (ErrBit.bit .cmdReject).getLsbD k = false := by
  rw [show ErrBit.bit .cmdReject = BitVec.twoPow 3 0 by decide, BitVec.getLsbD_twoPow]
  simp [hk.symm]

theorem IrqSource.getLsbD_cmdReject {k : Nat} (hk : k ≠ 6) : (IrqSource.bit .cmdReject).getLsbD k = false := by
  rw [show IrqSource.bit .cmdReject = BitVec.twoPow 7 6 by decide, BitVec.getLsbD_twoPow]
  simp [hk.symm]

theorem IrqSource.getLsbD_ringReq {k : Nat} (hk : k ≠ 2) : (IrqSource.bit .ringReq).getLsbD k = false := by
  rw [show IrqSource.bit .ringReq = BitVec.twoPow 7 2 by decide, BitVec.getLsbD_twoPow]
  simp [hk.symm]

theorem IrqSource.getLsbD_sweepDone {k : Nat} (hk : k ≠ 1) : (IrqSource.bit .sweepDone).getLsbD k = false := by
  rw [show IrqSource.bit .sweepDone = BitVec.twoPow 7 1 by decide, BitVec.getLsbD_twoPow]
  simp [hk.symm]

theorem exec_err_getLsbD {i : Instr} {s t : State} (h : exec i s = .next t) {k : Nat} (hk : k ≠ 0) :
    t.host.err.getLsbD k = s.host.err.getLsbD k := by
  rcases exec_err_cases h with e | e
  · rw [e]
  · rw [e, BitVec.getLsbD_or, ErrBit.getLsbD_cmdReject hk, Bool.or_false]

theorem exec_irqPend_getLsbD {i : Instr} {s t : State} (h : exec i s = .next t) {k : Nat} (hk : k ≠ 6)
    (hstart : ¬(i = .sweepStart ∧ k = 2)) (hcancel : ¬(i = .sweepCancel ∧ k = 1)) :
    t.host.irqPend.getLsbD k = s.host.irqPend.getLsbD k := by
  rcases exec_irqPend_cases h with e | ⟨src, e, hsrc⟩
  · rw [e]
  · rw [e, BitVec.getLsbD_or]
    rcases hsrc with rfl | ⟨hi, rfl⟩ | ⟨hi, rfl⟩
    · rw [IrqSource.getLsbD_cmdReject hk, Bool.or_false]
    · rw [IrqSource.getLsbD_ringReq fun hk => hstart ⟨hi, hk⟩, Bool.or_false]
    · rw [IrqSource.getLsbD_sweepDone fun hk => hcancel ⟨hi, hk⟩, Bool.or_false]

/-! ### The units a command touches -/

/-- The unit fields that each command leaves alone, beyond `CommandFrame`. -/
structure UnitFrame (i : Instr) (s t : State) : Prop where
  motion : i = .nop ∨ i = .pktRead ∨ i = .pktCheck ∨ i = .ctuXform → t.sdu = s.sdu ∧ t.ssm = s.ssm
  pvu : i ≠ .pktRead → i ≠ .pktCheck → t.pvu = s.pvu
  pktCheck : i = .pktCheck → t.pvu = { s.pvu with pktValid := t.pvu.pktValid, pktLast := t.pvu.pktLast }
  ctu : i ≠ .ctuXform → t.ctu = s.ctu
  drive : i = .setRes ∨ i = .setSpeed ∨ i = .setCorr ∨ i = .turn → t.ssm = s.ssm
  sweepConfig : i = .setRings ∨ i = .setPrerot ∨ i = .setRto → t.sdu = s.sdu
  setRes : i = .setRes → t.sdu = { s.sdu with mscode := t.sdu.mscode }
  setSpeed : i = .setSpeed → t.sdu = { s.sdu with speed := t.sdu.speed }
  setCorr : i = .setCorr → t.sdu = { s.sdu with corr := t.sdu.corr }
  setRings : i = .setRings → t.ssm = { s.ssm with rings := t.ssm.rings }
  setPrerot : i = .setPrerot → t.ssm = { s.ssm with prerot := t.ssm.prerot }
  setRto : i = .setRto → t.ssm = { s.ssm with rto := t.ssm.rto }
  driveConfig : i = .turn ∨ i = .sweepStart ∨ i = .ringDone ∨ i = .sweepCancel →
    t.sdu.mscode = s.sdu.mscode ∧ t.sdu.speed = s.sdu.speed ∧ t.sdu.corr = s.sdu.corr
  sweepStart : i = .sweepStart →
    t.ssm.rings = s.ssm.rings ∧ t.ssm.prerot = s.ssm.prerot ∧ t.ssm.rto = s.ssm.rto
  ringDone : i = .ringDone → t.ssm = { s.ssm with ringIdx := t.ssm.ringIdx, state := t.ssm.state }
  sweepCancel : i = .sweepCancel → t.ssm = { s.ssm with
    state := t.ssm.state, cancelPend := t.ssm.cancelPend, seqEnd := t.ssm.seqEnd }

/-- A command that leaves all four units keeps to its unit. -/
theorem UnitFrame.of_units_eq {i : Instr} {s t : State} (hp : t.pvu = s.pvu) (hd : t.sdu = s.sdu)
    (hq : t.ssm = s.ssm) (hc : t.ctu = s.ctu) : UnitFrame i s t := by
  constructor <;> simp [hp, hd, hq, hc]

theorem CommandEffect.unitFrame {s u : State} {i : Instr} (h : CommandEffect s i u) : UnitFrame i s u := by
  cases h with
  | nop => exact .of_units_eq rfl rfl rfl rfl
  | sweepCancel_late => exact .of_units_eq rfl rfl rfl rfl
  | sweepCancel_return hs =>
    rcases s.enterReturn_cases .cancelled with ⟨_, e⟩ | ⟨_, e⟩ <;> rw [e] <;> constructor <;> simp <;> rfl
  | sweepStart_ring => constructor <;> simp
  | sweepStart_prerot => constructor <;> simp
  | _ => constructor <;> simp <;> rfl

theorem exec_unitFrame {i : Instr} {s t : State} (h : exec i s = .next t) : UnitFrame i s t := by
  rcases exec_next h with ⟨c, rfl⟩ | ⟨c, u, he, rfl⟩
  · exact .of_units_eq rfl rfl rfl rfl
  · exact { he.unitFrame with }

theorem exec_pktbuf {i : Instr} {s t : State} (h : exec i s = .next t) (hi : i ≠ .pktRead) :
    t.pvu.pktbuf = s.pvu.pktbuf := by
  by_cases hc : i = .pktCheck
  · have e := congrArg Pvu.pktbuf ((exec_unitFrame h).pktCheck hc)
    exact e
  · rw [(exec_unitFrame h).pvu hi hc]

/-- Settles O19: every command is a rejection or one of the effects of `CommandEffect`, and each of those keeps both
frames. -/
theorem commandsKeepToTheirUnit : Obligations.CommandsKeepToTheirUnit := by
  intro i s
  obtain ⟨t, h⟩ := exec_total i s
  have f := exec_frame h
  have u := exec_unitFrame h
  have drive : i = .turn ∨ i = .sweepStart ∨ i = .ringDone ∨ i = .sweepCancel →
      t.sdu.mscode = s.sdu.mscode ∧ t.sdu.speed = s.sdu.speed ∧ t.sdu.corr = s.sdu.corr ∧
      t.sdu.phCnt = s.sdu.phCnt := fun hi =>
    have ⟨hm, hs, hc⟩ := u.driveConfig hi
    ⟨hm, hs, hc, f.phCnt⟩
  have start : i = .sweepStart → t.ssm.rings = s.ssm.rings ∧ t.ssm.prerot = s.ssm.prerot ∧
      t.ssm.rto = s.ssm.rto ∧ t.ssm.failRing = s.ssm.failRing := fun hi =>
    have ⟨hr, hp, ho⟩ := u.sweepStart hi
    ⟨hr, hp, ho, f.failRing⟩
  exact ⟨t, h, f.arg0, f.arg1, f.irqEn, f.swphase, f.lastcmd, f.rho, f.phi, f.theta, f.offset, f.lines, f.params,
    f.inputs, f.readData, fun _ hk => exec_err_getLsbD h hk, fun _ hk hs hc => exec_irqPend_getLsbD h hk hs hc,
    u.motion, fun hi j => by rw [exec_pktbuf h hi], u.pvu, u.pktCheck, u.ctu, u.drive, u.sweepConfig, u.setRes,
    u.setSpeed, u.setCorr, u.setRings, u.setPrerot, u.setRto, drive, f.pos, start, u.ringDone, u.sweepCancel⟩

end Sys2Proof.Machine

namespace Sys2Proof.Machine

/-! ## The packet validator keeps its invariant -/

/-- The validator's invariant speaks of the validator and the parameters only. -/
theorem PvuInv.congr {s t : State} (h : PvuInv s) (hp : t.pvu = s.pvu) (hq : t.params = s.params) : PvuInv t := by
  obtain ⟨hwf, hrx, hre, hv⟩ := h
  exact ⟨by rwa [hp], by rwa [hp, hq], by rwa [hp, hq], by rwa [hp, hq]⟩

/-- Resync() splits the queue into the bytes it counts and the bytes it keeps (40_packet_validator R206). -/
theorem resync_length (q : List Byte) : (resync q).2 + (resync q).1.length = q.length := by
  induction q with
  | nil => rfl
  | cons b q ih =>
    rw [resync]
    split
    · simp
    · simp only [List.length_cons]; omega

theorem State.takenCount_le (s : State) : s.takenCount ≤ s.pvu.rxq.length := Nat.min_le_right _ _

/-- A packet is accepted only when all of its 47 bytes were taken (40_packet_validator R204). -/
theorem State.takenCount_of_accepted {s : State} (h : s.readVerdict = .ok) : s.takenCount = PKT_LEN := by
  have hle : s.takenCount ≤ PKT_LEN := Nat.min_le_left _ _
  rw [State.readVerdict, validate] at h
  split at h
  · cases h
  · omega

theorem State.readBuffer_wf {s : State} (h : PvuInv s) : Memory.wf s.readBuffer = true := by
  rw [State.readBuffer]
  exact writePacket_wf _ h.bufWf

theorem acceptPacket_pvuInv {s : State} (h : PvuInv s) (hv : s.readVerdict = .ok) :
    PvuInv { s with pvu := s.acceptPacket } where
  bufWf := by
    rw [State.acceptPacket_pktbuf]
    exact State.readBuffer_wf h
  rxqBound := by
    have := h.rxqBound
    simp only [State.acceptPacket_rxq, List.length_drop]
    omega
  resyncBound := by simp
  validMeansOk _ := by
    rw [State.readVerdict, State.takenCount_of_accepted hv] at hv
    rw [State.acceptPacket_pktbuf]
    exact ⟨State.acceptPacket_pktLast s, hv⟩

theorem discardPacket_pvuInv {s : State} (h : PvuInv s) (v : PktVerdict) :
    PvuInv { s with pvu := s.discardPacket v } where
  bufWf := by
    rw [State.discardPacket_pktbuf]
    exact State.readBuffer_wf h
  rxqBound := by
    have hrx := h.rxqBound
    have hlen := resync_length (s.pvu.rxq.drop s.takenCount)
    simp only [List.length_drop] at hlen
    simp only [State.discardPacket_rxq]
    omega
  resyncBound := by
    have hrx := h.rxqBound
    have hlen := resync_length (s.pvu.rxq.drop s.takenCount)
    simp only [List.length_drop] at hlen
    simp only [State.discardPacket_resyncCnt, BitVec.toNat_ofNat]
    exact (Nat.mod_le _ _).trans (by omega)
  validMeansOk hv := by simp at hv

theorem checkPacket_pvuInv {s : State} (h : PvuInv s) : PvuInv
    { s with pvu := { s.pvu with pktValid := decide (s.bufferVerdict = .ok), pktLast := s.bufferVerdict } } where
  bufWf := h.bufWf
  rxqBound := h.rxqBound
  resyncBound := h.resyncBound
  validMeansOk hv := ⟨of_decide_eq_true hv, of_decide_eq_true hv⟩

theorem writePktbuf_pvuInv {s : State} (h : PvuInv s) (k : Fin 12) (v : Word) : PvuInv (writePktbuf k v s) where
  bufWf := writePktbuf_wf k v s h.bufWf
  rxqBound := h.rxqBound
  resyncBound := h.resyncBound
  validMeansOk hv := by cases hv

theorem CommandEffect.pvuInv {s u : State} {i : Instr} (h : CommandEffect s i u) (hs : PvuInv s) : PvuInv u := by
  cases h with
  | pktRead_accept hv => exact acceptPacket_pvuInv hs hv
  | pktRead_discard hv => exact discardPacket_pvuInv hs _
  | pktCheck => exact checkPacket_pvuInv hs
  | sweepCancel_return => exact hs.congr (s.enterReturn_pvu _) (s.enterReturn_params _)
  | _ => exact hs.congr rfl rfl

theorem rxPhase_pvuInv {s : State} (h : PvuInv s) (rx : Option Byte) : PvuInv (rxPhase rx s) := by
  rcases rxPhase_cases rx s with ⟨_, e⟩ | ⟨b, _, hlt, e⟩ | ⟨b, _, _, e⟩
  · rw [e]; exact h
  · rw [e]
    exact { h with rxqBound := by simp only [List.length_append, List.length_singleton]; omega }
  · rw [e]; exact h.congr rfl rfl

/-! ## The stepper drive keeps its invariant -/

/-- The drive's invariant speaks of the drive only. -/
theorem SduInv.congr {s t : State} (h : SduInv s) (hd : t.sdu = s.sdu) : SduInv t := by
  obtain ⟨h1, h2, h3, h4, h5, h6⟩ := h
  constructor <;> rw [hd] <;> assumption

/-- A half-period fits its register and is at least one cycle (41_stepper_drive R265). -/
theorem halfPeriod_register_pos (fclk md speed : Nat) : 1 ≤ (BitVec.ofNat 32 (halfPeriod fclk md speed)).toNat := by
  have hlo : 1 ≤ halfPeriod fclk md speed := le_min (by norm_num) (le_max_left _ _)
  have hhi : halfPeriod fclk md speed ≤ 2 ^ 32 - 1 := min_le_left _ _
  rw [BitVec.toNat_ofNat, Nat.mod_eq_of_lt (by omega)]
  exact hlo

/-- An idle drive may start a turn of any positive number of steps. -/
theorem startTurn_sduInv {s : State} (h : SduInv s) (hidle : s.sdu.state = .idle) (d : Dir) {n : DWord}
    (hn : n ≠ 0) (o : Origin) : SduInv (s.startTurn d n o) where
  speedRange := h.speedRange
  corrRange := h.corrRange
  pulses := by simp
  remIffBusy := by simpa using hn
  halfPos _ := halfPeriod_register_pos _ _ _
  phase := by simpa [hidle] using h.phase

/-- A drive in HIGH or LOW has a hold left to count. -/
theorem SduInv.phCnt_range {s : State} (h : SduInv s) (hs : s.sdu.state = .high ∨ s.sdu.state = .low) :
    1 ≤ s.sdu.phCnt.toNat ∧ s.sdu.phCnt.toNat ≤ s.sdu.half.toNat := by
  simpa [hs] using h.phase

theorem startHold_sduInv {s : State} (h : SduInv s) (hbusy : s.sdu.state ≠ .idle) {q : SduState}
    (hq : q = .high ∨ q = .low) : SduInv (s.startHold q) where
  speedRange := h.speedRange
  corrRange := h.corrRange
  pulses := h.pulses
  remIffBusy := by
    have hrem := h.remIffBusy.2 hbusy
    rcases hq with rfl | rfl <;> simpa using hrem
  halfPos _ := h.halfPos hbusy
  phase := by simpa [hq] using h.halfPos hbusy

theorem countHold_sduInv {s : State} (h : SduInv s) (hs : s.sdu.state = .high ∨ s.sdu.state = .low)
    (hc : s.sdu.phCnt - 1 ≠ 0) : SduInv s.countHold where
  speedRange := h.speedRange
  corrRange := h.corrRange
  pulses := h.pulses
  remIffBusy := h.remIffBusy
  halfPos := h.halfPos
  phase := by
    obtain ⟨hlo, hhi⟩ := h.phCnt_range hs
    simp only [State.countHold_sdu_state, State.countHold_sdu_phCnt, State.countHold_sdu_half, hs, if_true]
    bv_omega

/-- One pulse more done and one less to do (10_state R32). -/
theorem pulses_countPulse {s : State} (h : SduInv s) (hbusy : s.sdu.state ≠ .idle) :
    (s.sdu.stepCnt + 1).toNat + (s.sdu.rem - 1).toNat = s.sdu.turnN.toNat := by
  have hsum := h.pulses
  have hrem := h.remIffBusy.2 hbusy
  bv_omega

/-- The next pulse cycle begins: the pulse counted, a full hold ahead. -/
theorem nextPulse_sduInv {s : State} (h : SduInv s) (hs : s.sdu.state = .low) (hr : s.sdu.rem - 1 ≠ 0) :
    SduInv (s.countPulse.startHold .high) where
  speedRange := h.speedRange
  corrRange := h.corrRange
  pulses := pulses_countPulse h (by simp [hs])
  remIffBusy := by simpa using hr
  halfPos _ := h.halfPos (by simp [hs])
  phase := by simpa using h.halfPos (by simp [hs])

/-- The turn ends with its last pulse counted. -/
theorem finishTurn_sduInv {s : State} (h : SduInv s) (hs : s.sdu.state = .low) (hc : s.sdu.phCnt - 1 = 0)
    (hr : s.sdu.rem - 1 = 0) : SduInv s.countPulse.finishTurn where
  speedRange := h.speedRange
  corrRange := h.corrRange
  pulses := pulses_countPulse h (by simp [hs])
  remIffBusy := by simpa using hr
  halfPos hb := absurd rfl hb
  phase := by simpa using hc

theorem sduTick_sduInv {s : State} (h : SduInv s) : SduInv (sduTick s).1 := by
  rcases sduTick_cases s with ⟨_, e⟩ | ⟨hs, e⟩ | ⟨hs, _, e⟩ | ⟨hs, hc, e⟩ | ⟨hs, _, hr, e⟩ | ⟨hs, hc, hr, e⟩
  · rw [e]; exact h
  · rw [e]; exact startHold_sduInv h (by simp [hs]) (.inl rfl)
  · rw [e]; exact startHold_sduInv h (by simp [hs]) (.inr rfl)
  · rw [e]; exact countHold_sduInv h hs hc
  · rw [e]; exact nextPulse_sduInv h hs hr
  · have hf := finishTurn_sduInv h hs hc hr
    rw [e]
    rcases turnComplete_cases s.countPulse with ⟨_, e'⟩ | ⟨_, e'⟩
    · rw [e']; exact hf.congr rfl
    · rw [e']; exact hf

end Sys2Proof.Machine

namespace Sys2Proof.Machine

/-! ## The sweep sequencer keeps its invariant

`SsmInv` says something else in each state of the sequencer. One lemma per state says what it takes to enter it; the
commands and the tick cite the lemma of the state they lead to. -/

/-- The sequencer's invariant speaks of the sequencer and the drive only. -/
theorem SsmInv.congr {s t : State} (h : SsmInv s) (hd : t.sdu = s.sdu) (hq : t.ssm = s.ssm) : SsmInv t := by
  obtain ⟨h1, h2, h3, h4, h5, h6, h7, h8, h9, h10, h11⟩ := h
  constructor <;> simp only [hd, hq] <;> assumption

theorem SsmInv.of_idle {s : State} (hq : s.ssm.state = .idle) (hr : 1 ≤ s.ssm.rings.toNat)
    (hc : s.ssm.cancelPend = false) (hd : s.sdu.state = .idle ∨ s.sdu.turnOrigin = .host) : SsmInv s := by
  constructor <;> simp [hq, hr, hc, hd]

/-- SPRING is in the range that an active sweep needs (42_sweep_sequencer R333 item 4). -/
def State.springOk (s : State) : Prop :=
  1 ≤ s.ssm.spring.toNat ∧ s.ssm.spring.toNat ≤ 100 * Preset.md s.sdu.mscode

theorem SsmInv.springOk {s : State} (h : SsmInv s) (hq : s.ssm.state ≠ .idle) : s.springOk := h.springRange hq

theorem SsmInv.of_ringWait {s : State} (hq : s.ssm.state = .ringWait) (hr : 1 ≤ s.ssm.rings.toNat)
    (hsp : s.springOk) (hc : s.ssm.cancelPend = false) (hd : s.sdu.state = .idle) (he : s.ssm.seqEnd = .none)
    (ht : s.ssm.rto ≠ 0 → s.ssm.rtoCnt.toNat < s.ssm.rto.toNat) : SsmInv s := by
  obtain ⟨hlo, hhi⟩ := hsp
  constructor <;> simp [hq, hr, hc, hd, he, hlo, hhi]
  exact ht

theorem SsmInv.of_prerot {s : State} (hq : s.ssm.state = .prerot) (hr : 1 ≤ s.ssm.rings.toNat) (hsp : s.springOk)
    (hd : s.sdu.state ≠ .idle) (ho : s.sdu.turnOrigin = .seq) (hcw : s.sdu.turnDir = .cw)
    (hn : s.sdu.turnN = s.ssm.prerot.setWidth 64) (hacc : s.ssm.sweepAcc = 0) (he : s.ssm.seqEnd = .none) :
    SsmInv s := by
  obtain ⟨hlo, hhi⟩ := hsp
  constructor <;> simp [hq, hr, hd, ho, hcw, hn, hacc, he, hlo, hhi]

theorem SsmInv.of_advance {s : State} (hq : s.ssm.state = .advance) (hr : 1 ≤ s.ssm.rings.toNat) (hsp : s.springOk)
    (hd : s.sdu.state ≠ .idle) (ho : s.sdu.turnOrigin = .seq) (hcw : s.sdu.turnDir = .cw)
    (hn : s.sdu.turnN = s.ssm.spring.setWidth 64) (he : s.ssm.seqEnd = .none) : SsmInv s := by
  obtain ⟨hlo, hhi⟩ := hsp
  constructor <;> simp [hq, hr, hd, ho, hcw, hn, he, hlo, hhi]

theorem SsmInv.of_returning {s : State} (hq : s.ssm.state = .returning) (hr : 1 ≤ s.ssm.rings.toNat)
    (hsp : s.springOk) (hc : s.ssm.cancelPend = false) (hd : s.sdu.state ≠ .idle) (ho : s.sdu.turnOrigin = .seq)
    (hccw : s.sdu.turnDir = .ccw) (hn : s.sdu.turnN = s.ssm.sweepAcc) (he : s.ssm.seqEnd ≠ .none) : SsmInv s := by
  obtain ⟨hlo, hhi⟩ := hsp
  constructor <;> simp [hq, hr, hc, hd, ho, hccw, hn, he, hlo, hhi]

/-- Outside PREROT and ADVANCE no cancel is pending (42_sweep_sequencer R333 item 3). -/
theorem SsmInv.noCancel {s : State} (h : SsmInv s) (hp : s.ssm.state ≠ .prerot) (ha : s.ssm.state ≠ .advance) :
    s.ssm.cancelPend = false := by
  by_contra hc
  rcases h.cancel (by simpa using hc) with hq | hq
  · exact hp hq
  · exact ha hq

/-- Until the sweep ends SEQ_END is NONE. -/
theorem SsmInv.notEnded {s : State} (h : SsmInv s)
    (hq : s.ssm.state = .prerot ∨ s.ssm.state = .ringWait ∨ s.ssm.state = .advance) : s.ssm.seqEnd = .none :=
  h.ended.1 hq

/-! ### EnterRingWait and EnterReturn, from an idle drive -/

theorem enterRingWait_ssmInv {s : State} (hd : s.sdu.state = .idle) (hr : 1 ≤ s.ssm.rings.toNat)
    (hsp : s.springOk) (hc : s.ssm.cancelPend = false) (he : s.ssm.seqEnd = .none) : SsmInv s.enterRingWait :=
  .of_ringWait rfl hr hsp hc hd he fun hrto => by
    have h0 : s.ssm.rto ≠ 0 := hrto
    simp only [State.enterRingWait_ssm_rtoCnt, State.enterRingWait_ssm_rto]
    bv_omega

theorem enterReturn_sduInv {s : State} (h : SduInv s) (hd : s.sdu.state = .idle) (c : SeqEnd) :
    SduInv (s.enterReturn c) := by
  rcases s.enterReturn_cases c with ⟨_, e⟩ | ⟨hacc, e⟩
  · rw [e]; exact h.congr rfl
  · rw [e]; exact (startTurn_sduInv (h.congr rfl) hd .ccw hacc .seq).congr rfl

theorem enterReturn_ssmInv {s : State} (hd : s.sdu.state = .idle) (hr : 1 ≤ s.ssm.rings.toNat)
    (hsp : s.springOk) {c : SeqEnd} (hc : c ≠ .none) : SsmInv (s.enterReturn c) := by
  rcases s.enterReturn_cases c with ⟨_, e⟩ | ⟨hacc, e⟩
  · rw [e]; exact .of_idle rfl hr rfl (.inl hd)
  · rw [e]; exact .of_returning rfl hr hsp rfl (by simp) rfl rfl rfl hc

/-! ### The ticks -/

/-- The drive's turn goes on through an SDU tick without TURN_COMPLETE. -/
theorem sduTick_running {s : State} (h : (sduTick s).2 = false) :
    ((sduTick s).1.sdu.state = .idle ↔ s.sdu.state = .idle) := by
  rcases sduTick_cases s with ⟨hs, e⟩ | ⟨hs, e⟩ | ⟨hs, _, e⟩ | ⟨hs, _, e⟩ | ⟨hs, _, _, e⟩ | ⟨hs, _, _, e⟩
  · rw [e]
  · rw [e]; simp [hs]
  · rw [e]; simp [hs]
  · rw [e]; simp
  · rw [e]; simp [hs]
  · rw [e] at h; cases h

/-- TURN_COMPLETE comes from a running turn and leaves the drive idle. -/
theorem sduTick_done {s : State} (h : (sduTick s).2 = true) :
    s.sdu.state = .low ∧ (sduTick s).1.sdu.state = .idle := by
  rcases sduTick_cases s with ⟨hs, e⟩ | ⟨hs, e⟩ | ⟨hs, _, e⟩ | ⟨hs, _, e⟩ | ⟨hs, _, _, e⟩ | ⟨hs, _, _, e⟩
  case inr.inr.inr.inr.inr => -- the last pulse: TURN_COMPLETE
    rw [e]
    rcases turnComplete_cases s.countPulse with ⟨_, e'⟩ | ⟨_, e'⟩ <;> exact ⟨hs, by rw [e']; rfl⟩
  all_goals rw [e] at h; cases h

/-- What an SDU tick never changes. -/
structure DriveFrame (s t : State) : Prop where
  mscode : t.sdu.mscode = s.sdu.mscode
  turnN : t.sdu.turnN = s.sdu.turnN
  turnDir : t.sdu.turnDir = s.sdu.turnDir
  turnOrigin : t.sdu.turnOrigin = s.sdu.turnOrigin
  pvu : t.pvu = s.pvu
  ssm : t.ssm = s.ssm
  params : t.params = s.params

theorem sduTick_frame (s : State) : DriveFrame s (sduTick s).1 := by
  rcases sduTick_cases s with ⟨_, e⟩ | ⟨_, e⟩ | ⟨_, _, e⟩ | ⟨_, _, e⟩ | ⟨_, _, _, e⟩ | ⟨_, _, _, e⟩
  case inr.inr.inr.inr.inr => -- the last pulse: TURN_COMPLETE
    rw [e]
    rcases turnComplete_cases s.countPulse with ⟨_, e'⟩ | ⟨_, e'⟩ <;> rw [e'] <;> constructor <;> rfl
  all_goals rw [e]; constructor <;> rfl

/-- While no turn completes, the SDU tick keeps the sequencer's invariant. -/
theorem sduTick_ssmInv {s : State} (h : SsmInv s) (hdone : (sduTick s).2 = false) : SsmInv (sduTick s).1 := by
  have f := sduTick_frame s
  have hrun := sduTick_running hdone
  constructor <;> rw [f.ssm]
  case ringsPos => exact h.ringsPos
  case turning => rw [f.turnOrigin, ne_eq, hrun]; exact h.turning
  case waiting => rw [hrun]; exact h.waiting
  case idle => rw [f.turnOrigin, hrun]; exact h.idle
  case cancel => exact h.cancel
  case springRange => rw [f.mscode]; exact h.springRange
  case prerotTurn => rw [f.turnDir, f.turnN]; exact h.prerotTurn
  case advanceTurn => rw [f.turnDir, f.turnN]; exact h.advanceTurn
  case returnTurn => rw [f.turnDir, f.turnN]; exact h.returnTurn
  case ended => exact h.ended
  case timer => exact h.timer

/-- What the SSM tick finds after the SDU tick, `done` being TURN_COMPLETE: the drive's invariant, and the
sequencer's but for a drive that has just become idle. -/
structure BetweenTicks (done : Bool) (s : State) : Prop where
  sdu : SduInv s
  running : done = false → SsmInv s
  completed : done = true → s.sdu.state = .idle ∧ s.ssm.state ≠ .ringWait
  rings : 1 ≤ s.ssm.rings.toNat
  spring : s.ssm.state ≠ .idle → s.springOk
  noCancel : s.ssm.state ≠ .prerot → s.ssm.state ≠ .advance → s.ssm.cancelPend = false
  notEnded : s.ssm.state = .prerot ∨ s.ssm.state = .ringWait ∨ s.ssm.state = .advance → s.ssm.seqEnd = .none

theorem sduTick_betweenTicks {s : State} (hd : SduInv s) (hq : SsmInv s) :
    BetweenTicks (sduTick s).2 (sduTick s).1 := by
  have f := sduTick_frame s
  refine ⟨sduTick_sduInv hd, sduTick_ssmInv hq, fun hdone => ?_, ?_, ?_, ?_, ?_⟩
  · obtain ⟨hlow, hidle⟩ := sduTick_done hdone
    refine ⟨hidle, fun hw => ?_⟩
    rw [f.ssm] at hw
    exact absurd (hq.waiting hw) (by simp [hlow])
  · rw [f.ssm]; exact hq.ringsPos
  · rw [State.springOk, f.ssm, f.mscode]; exact hq.springRange
  · rw [f.ssm]; exact hq.noCancel
  · rw [f.ssm]; exact hq.notEnded

/-- In RING_WAIT no turn can have completed. -/
theorem BetweenTicks.waiting {done : Bool} {s : State} (h : BetweenTicks done s) (hw : s.ssm.state = .ringWait) :
    SsmInv s := by
  cases done with
  | false => exact h.running rfl
  | true => exact absurd hw (h.completed rfl).2

theorem ssmTick_sduInv {done : Bool} {s : State} (h : BetweenTicks done s) : SduInv (ssmTick done s) := by
  rcases ssmTick_cases done s with ⟨_, e⟩ | ⟨_, hdone, _, e⟩ | ⟨_, _, _, e⟩ | ⟨_, hdone, _, e⟩ |
    ⟨_, hdone, _, _, e⟩ | ⟨_, _, _, _, e⟩ | ⟨_, _, e⟩ | ⟨hw, _, e⟩ | ⟨_, _, e⟩
  · rw [e]; exact h.sdu
  · rw [e]; exact enterReturn_sduInv (s := s.addSweep _) (h.sdu.congr rfl) (h.completed hdone).1 _
  · rw [e]; exact h.sdu.congr rfl
  · rw [e]; exact enterReturn_sduInv (s := s.addSweep _) (h.sdu.congr rfl) (h.completed hdone).1 _
  · rw [e]; exact enterReturn_sduInv (s := s.addSweep _) (h.sdu.congr rfl) (h.completed hdone).1 _
  · rw [e]; exact h.sdu.congr rfl
  · rw [e]; exact h.sdu.congr rfl
  · rw [e]
    exact enterReturn_sduInv (s := s.countRto.recordTimeout) (h.sdu.congr rfl) ((h.waiting hw).waiting hw) _
  · rw [e]; exact h.sdu.congr rfl

theorem ssmTick_ssmInv {done : Bool} {s : State} (h : BetweenTicks done s) : SsmInv (ssmTick done s) := by
  rcases ssmTick_cases done s with ⟨⟨_, hstay⟩, e⟩ | ⟨hq, hdone, hc, e⟩ | ⟨hq, hdone, hc, e⟩ |
    ⟨hq, hdone, hc, e⟩ | ⟨hq, hdone, hc, _, e⟩ | ⟨hq, hdone, hc, _, e⟩ | ⟨hq, hdone, e⟩ | ⟨hw, _, e⟩ | ⟨hw, hrto, e⟩
  · -- nothing completes
    rw [e]
    cases done with
    | false => exact h.running rfl
    | true =>
      have hidle : s.ssm.state = .idle := by simpa using hstay
      exact .of_idle hidle h.rings (h.noCancel (by simp [hidle]) (by simp [hidle])) (.inl (h.completed rfl).1)
  · -- the pre-rotation is cancelled
    rw [e]
    exact enterReturn_ssmInv (s := s.addSweep _) (h.completed hdone).1 h.rings (h.spring (by simp [hq])) (by simp)
  · -- the pre-rotation completes
    rw [e]
    exact enterRingWait_ssmInv (h.completed hdone).1 h.rings (h.spring (by simp [hq])) hc (h.notEnded (.inl hq))
  · -- an advance is cancelled
    rw [e]
    exact enterReturn_ssmInv (s := s.addSweep _) (h.completed hdone).1 h.rings (h.spring (by simp [hq])) (by simp)
  · -- an advance reaches the angle
    rw [e]
    exact enterReturn_ssmInv (s := s.addSweep _) (h.completed hdone).1 h.rings (h.spring (by simp [hq])) (by simp)
  · -- an advance completes
    rw [e]
    exact enterRingWait_ssmInv (h.completed hdone).1 h.rings (h.spring (by simp [hq])) hc
      (h.notEnded (.inr (.inr hq)))
  · -- the reset rotation completes
    rw [e]
    exact .of_idle rfl h.rings (h.noCancel (by simp [hq]) (by simp [hq])) (.inl (h.completed hdone).1)
  · -- the ring timeout runs out
    rw [e]
    exact enterReturn_ssmInv (s := s.countRto.recordTimeout) ((h.waiting hw).waiting hw) h.rings
      (h.spring (by simp [hw])) (by simp)
  · -- the ring timeout goes on
    rw [e]
    exact .of_ringWait hw h.rings (h.spring (by simp [hw])) (h.noCancel (by simp [hw]) (by simp [hw]))
      ((h.waiting hw).waiting hw) (h.notEnded (.inr (.inl hw))) fun h0 => not_le.1 fun hle => hrto ⟨h0, hle⟩

/-! ### The commands -/

/-- SPRING as SWEEP_START computes it is in range when RINGS is (42_sweep_sequencer R323, R333 item 4). -/
theorem stepsPerRing_range {md rings : Nat} (hlo : 1 ≤ rings) (hhi : rings ≤ 100 * md) :
    1 ≤ stepsPerRing md rings ∧ stepsPerRing md rings ≤ 100 * md := by
  have hq : 1 ≤ 100 * md / rings := (Nat.one_le_div_iff hlo).2 hhi
  have hdiv := Nat.div_add_mod (100 * md) rings
  have hup : 100 * md % rings = 0 ∨ 100 * md / rings + 1 ≤ 100 * md := by
    rcases Nat.eq_or_lt_of_le hlo with h1 | h2
    · exact .inl (by rw [← h1, Nat.mod_one])
    · refine .inr ?_
      have := Nat.div_lt_self (by omega : 0 < 100 * md) h2
      omega
  have hle : 100 * md / rings ≤ 100 * md := Nat.div_le_self _ _
  simp only [stepsPerRing, roundHalfEven]
  split
  · omega
  · split
    · omega
    · omega

theorem Preset.md_le (p : Preset) : Preset.md p ≤ 16 := by cases p <;> decide

theorem sweepPrepare_springOk {s : State} (hlo : 1 ≤ s.ssm.rings.toNat)
    (hhi : s.ssm.rings.toNat ≤ 100 * Preset.md s.sdu.mscode) : (sweepPrepare s).springOk := by
  have hr := stepsPerRing_range hlo hhi
  have hm := Preset.md_le s.sdu.mscode
  rw [State.springOk, sweepPrepare_ssm_spring, sweepPrepare_sdu, BitVec.toNat_ofNat, Nat.mod_eq_of_lt (by omega)]
  exact hr

/-- A word that is not zero stays so when it is extended to 64 bits. -/
theorem setWidth_steps_ne_zero {v : Word} (hv : v.toNat ≠ 0) : v.setWidth 64 ≠ (0 : DWord) := by
  bv_omega

theorem CommandEffect.sduInv {s u : State} {i : Instr} (h : CommandEffect s i u) (hd : SduInv s)
    (hq : SsmInv s) : SduInv u := by
  cases h with
  | setSpeed hb hlo hhi => exact { hd with speedRange := ⟨hlo, hhi⟩ }
  | setCorr hb hf hp => exact { hd with corrRange := ⟨hf, hp⟩ }
  | turn hb hn => exact startTurn_sduInv hd (State.busyNow_eq_false.1 hb).1 _ (setWidth_steps_ne_zero hn) _
  | sweepStart_prerot hb hr hp =>
    exact (startTurn_sduInv (s := sweepPrepare s) (hd.congr rfl) (State.busyNow_eq_false.1 hb).1 .cw
      (setWidth_steps_ne_zero (by bv_omega)) .seq).congr rfl
  | ringDone hs =>
    have hsp := hq.springRange (by simp [hs])
    exact (startTurn_sduInv (s := s.countRing) (hd.congr rfl) (hq.waiting hs) .cw
      (setWidth_steps_ne_zero (by omega)) .seq).congr rfl
  | sweepCancel_return hs => exact enterReturn_sduInv hd (hq.waiting hs) _
  | setRes p hb => exact { hd with }
  | _ => exact hd.congr rfl

/-- A command that needs both units idle leaves an idle sequencer, if it starts no sweep. -/
theorem SsmInv.of_notBusy {s u : State} (h : SsmInv s) (hb : s.busyNow = false) (hq : u.ssm.state = s.ssm.state)
    (hc : u.ssm.cancelPend = s.ssm.cancelPend) (hr : 1 ≤ u.ssm.rings.toNat)
    (hd : u.sdu.state = s.sdu.state ∨ u.sdu.turnOrigin = .host) : SsmInv u := by
  obtain ⟨hdi, hqi⟩ := State.busyNow_eq_false.1 hb
  refine .of_idle (hq.trans hqi) hr ?_ (hd.imp_left fun e => e.trans hdi)
  rw [hc]
  exact h.noCancel (by simp [hqi]) (by simp [hqi])

theorem requestCancel_ssmInv {s : State} (h : SsmInv s) (hs : s.ssm.state = .prerot ∨ s.ssm.state = .advance) :
    SsmInv s.requestCancel := { h with cancel := fun _ => hs }

theorem CommandEffect.ssmInv {s u : State} {i : Instr} (h : CommandEffect s i u) (hq : SsmInv s) : SsmInv u := by
  cases h with
  | setRes p hb => exact hq.of_notBusy hb rfl rfl hq.ringsPos (.inl rfl)
  | setSpeed hb => exact hq.of_notBusy hb rfl rfl hq.ringsPos (.inl rfl)
  | setCorr hb => exact hq.of_notBusy hb rfl rfl hq.ringsPos (.inl rfl)
  | turn hb => exact hq.of_notBusy hb rfl rfl hq.ringsPos (.inr rfl)
  | setRings hb hn => exact hq.of_notBusy hb rfl rfl (Nat.one_le_iff_ne_zero.2 hn) (.inl rfl)
  | setPrerot hb => exact hq.of_notBusy hb rfl rfl hq.ringsPos (.inl rfl)
  | setRto hb => exact hq.of_notBusy hb rfl rfl hq.ringsPos (.inl rfl)
  | sweepStart_ring hb hr hp =>
    exact enterRingWait_ssmInv (s := sweepPrepare s) (State.busyNow_eq_false.1 hb).1 hq.ringsPos
      (sweepPrepare_springOk hq.ringsPos hr) rfl rfl
  | sweepStart_prerot hb hr hp =>
    exact .of_prerot rfl hq.ringsPos (sweepPrepare_springOk hq.ringsPos hr) (by simp) rfl rfl rfl rfl rfl
  | ringDone hs =>
    exact .of_advance rfl hq.ringsPos (hq.springOk (by simp [hs])) (by simp) rfl rfl rfl
      (hq.notEnded (.inr (.inl hs)))
  | sweepCancel_return hs =>
    exact enterReturn_ssmInv (hq.waiting hs) hq.ringsPos (hq.springOk (by simp [hs])) (by simp)
  | sweepCancel_request hs => exact requestCancel_ssmInv hq hs
  | _ => exact hq.congr rfl rfl

/-! ## The whole machine -/

/-- The part of the invariant that holds between the phases of a cycle. -/
structure UnitsInv (s : State) : Prop where
  pvu : PvuInv s
  sdu : SduInv s
  ssm : SsmInv s

theorem UnitsInv.congr {s t : State} (h : UnitsInv s) (hp : t.pvu = s.pvu) (hd : t.sdu = s.sdu)
    (hq : t.ssm = s.ssm) (ha : t.params = s.params) : UnitsInv t :=
  ⟨h.pvu.congr hp ha, h.sdu.congr hd, h.ssm.congr hd hq⟩

/-- The SSM tick leaves the validator and the parameters alone. -/
theorem ssmTick_pvu_params (done : Bool) (s : State) :
    (ssmTick done s).pvu = s.pvu ∧ (ssmTick done s).params = s.params := by
  rcases ssmTick_cases done s with ⟨_, e⟩ | ⟨_, _, _, e⟩ | ⟨_, _, _, e⟩ | ⟨_, _, _, e⟩ |
    ⟨_, _, _, _, e⟩ | ⟨_, _, _, _, e⟩ | ⟨_, _, e⟩ | ⟨_, _, e⟩ | ⟨_, _, e⟩ <;> simp [e]

theorem ticks_unitsInv {s : State} (h : UnitsInv s) : UnitsInv (ticks s) := by
  have hb := sduTick_betweenTicks h.sdu h.ssm
  have f := sduTick_frame s
  obtain ⟨hp, ha⟩ := ssmTick_pvu_params (sduTick s).2 (sduTick s).1
  exact ⟨h.pvu.congr (hp.trans f.pvu) (ha.trans f.params), ssmTick_sduInv hb, ssmTick_ssmInv hb⟩

theorem exec_unitsInv {i : Instr} {s t : State} (h : exec i s = .next t) (hs : UnitsInv s) : UnitsInv t := by
  rcases exec_next h with ⟨c, rfl⟩ | ⟨c, u, he, rfl⟩
  · exact hs.congr rfl rfl rfl rfl
  · have hu : UnitsInv u := ⟨he.pvuInv hs.pvu, he.sduInv hs.sdu hs.ssm, he.ssmInv hs.ssm⟩
    exact hu.congr rfl rfl rfl rfl

theorem writeReg_unitsInv {s : State} (h : UnitsInv s) (r : Reg) (v : Word) : UnitsInv (s.writeReg r v) := by
  cases r with
  | pktbufW k => exact ⟨writePktbuf_pvuInv h.pvu k v, h.sdu.congr rfl, h.ssm.congr rfl rfl⟩
  | _ => exact h.congr rfl rfl rfl rfl

theorem writeWord_unitsInv {s : State} (h : UnitsInv s) (a : Addr) (v : Word) : UnitsInv (s.writeWord a v) := by
  rw [State.writeWord]
  split
  · exact writeReg_unitsInv h _ v
  · exact h

theorem dispatchCommand_unitsInv {v : Word} {s t : State} (h : dispatchCommand v s = .next t) (hs : UnitsInv s) :
    UnitsInv t := by
  have hl : UnitsInv (s.setLastcmd v) := hs.congr rfl rfl rfl rfl
  rcases dispatchCommand_cases v s with ⟨i, _, e⟩ | ⟨_, _, e⟩
  · exact exec_unitsInv (e ▸ h) hl
  · cases e.symm.trans h
    exact hl.congr rfl rfl rfl rfl

theorem busPhase_unitsInv {acc : Option BusAccess} {s t : State} (h : busPhase acc s = .next t)
    (hs : UnitsInv s) : UnitsInv t := by
  rcases busPhase_next h with ⟨_, rfl⟩ | ⟨a, _, _, rfl⟩ | ⟨a, v, _, _, _, rfl⟩ | ⟨a, v, _, _, hd⟩
  · exact hs.congr rfl rfl rfl rfl
  · exact hs.congr rfl rfl rfl rfl
  · exact writeWord_unitsInv (s := s.setReadData none) (hs.congr rfl rfl rfl rfl) a v
  · exact dispatchCommand_unitsInv hd (hs.congr rfl rfl rfl rfl)

theorem rxPhase_unitsInv {s : State} (h : UnitsInv s) (rx : Option Byte) : UnitsInv (rxPhase rx s) := by
  refine ⟨rxPhase_pvuInv h.pvu rx, ?_, ?_⟩
  · rcases rxPhase_cases rx s with ⟨_, e⟩ | ⟨_, _, _, e⟩ | ⟨_, _, _, e⟩ <;> rw [e] <;> exact h.sdu.congr rfl
  · rcases rxPhase_cases rx s with ⟨_, e⟩ | ⟨_, _, _, e⟩ | ⟨_, _, _, e⟩ <;> rw [e] <;> exact h.ssm.congr rfl rfl

theorem levelPhase_unitsInv {s : State} (h : UnitsInv s) : UnitsInv (levelPhase s) := by
  rcases levelPhase_cases s with ⟨_, e⟩ | ⟨_, e⟩ <;> rw [e] <;> exact h.congr rfl rfl rfl rfl

/-- The level phase establishes its invariant on every state (10_state R80, 60_exceptions R445). -/
theorem levelPhase_levelInv (s : State) : LevelInv (levelPhase s) := by
  rcases levelPhase_cases s with ⟨_, e⟩ | ⟨hlt, e⟩
  · rw [e]
    exact ⟨rfl, fun _ => by simp [latchLines, IrqSource.bit]⟩
  · rw [e]
    exact ⟨rfl, fun hle => absurd hlt (not_lt.2 hle)⟩

/-- The reset value of CORR, 1.0, is positive. -/
theorem scaled_one_pos : 0 < F64.scaled 0x3FF0000000000000 := by
  rw [F64.scaled, if_neg (by decide), F64.magnitude, if_neg (by decide)]
  positivity

theorem reset_sduInv : SduInv State.reset :=
  ⟨by decide, ⟨by decide, scaled_one_pos⟩, by decide, by decide, fun hb => absurd rfl hb, by decide⟩

/-- The reset values meet the invariant for all parameters and every environment (70_reset_and_hazards R491). -/
theorem resetCycle_inv (c : CycleInput) (s : State) : Inv (resetCycle c s) where
  pvu := ⟨rfl, Nat.zero_le _, Nat.zero_le _, fun hv => by cases hv⟩
  sdu := reset_sduInv.congr rfl
  ssm := .of_idle rfl (by decide : 1 ≤ (100 : Word).toNat) rfl (.inl rfl)
  level := ⟨by simp [resetCycle, State.resetWith, State.linesOf, MsTable.at], fun hle => by cases hle⟩

/-- Settles O55: each phase keeps the invariants of the units, the level phase establishes its own, and a reset cycle
establishes all of them. -/
theorem stepKeepsTheInvariant : Obligations.StepKeepsTheInvariant := by
  intro s t hs h
  have h0 : UnitsInv { s with inputs := s.inputs.tail } :=
    UnitsInv.congr ⟨hs.pvu, hs.sdu, hs.ssm⟩ rfl rfl rfl rfl
  rcases step_next h with ⟨_, rfl⟩ | ⟨_, b, hb, rfl⟩
  · exact resetCycle_inv _ _
  · have hu := levelPhase_unitsInv (rxPhase_unitsInv (busPhase_unitsInv hb (ticks_unitsInv h0)) s.nextInput.rx)
    exact ⟨hu.pvu, hu.sdu, hu.ssm, levelPhase_levelInv _⟩

end Sys2Proof.Machine

namespace Sys2Proof.Machine

/-! ## The register map (10_state R36) -/

/-- `regAt` undoes `Reg.addr`. -/
@[simp] theorem regAt_addr (r : Reg) : regAt (Reg.addr r) = some r := by
  cases r with
  | pktbufW k => revert k; decide
  | sample i => revert i; decide
  | _ => decide

/-- A register is found at its own address only. -/
theorem regAt_eq_some {a : Nat} {r : Reg} : regAt a = some r ↔ Reg.addr r = a := by
  refine ⟨fun h => ?_, fun h => h ▸ regAt_addr r⟩
  simpa using List.find?_some h

theorem Reg.addr_injective {r r' : Reg} (h : Reg.addr r = Reg.addr r') : r = r' := by
  simpa [h] using (regAt_addr r).symm

theorem Reg.addr_aligned (r : Reg) : Reg.addr r < 4096 ∧ Reg.addr r % 4 = 0 := by
  cases r with
  | pktbufW k => have := k.isLt; simp only [Reg.addr]; omega
  | sample i => have := i.isLt; simp only [Reg.addr]; omega
  | _ => decide

theorem Reg.addr_mapped (r : Reg) : mappedAddress (Reg.addr r) = true := by
  cases r with
  | pktbufW k => revert k; decide
  | sample i => revert i; decide
  | _ => decide

/-- The registers of one bank stand at consecutive word addresses, so they cover the bank. -/
theorem bank_covered {base : Nat} {rs : List Reg}
    (h : rs.map Reg.addr = (List.range rs.length).map (base + 4 * ·)) {a : Nat} (hlo : base ≤ a)
    (hhi : a < base + 4 * rs.length) (ha : a % 4 = base % 4) : ∃ r, Reg.addr r = a := by
  have hmem : a ∈ rs.map Reg.addr := by
    rw [h, List.mem_map]
    exact ⟨(a - base) / 4, List.mem_range.2 (by omega), by omega⟩
  obtain ⟨r, _, hr⟩ := List.mem_map.1 hmem
  exact ⟨r, hr⟩

/-- The command interface and the global registers, from 0x000. -/
def bankHost : List Reg := [.id, .cmd, .arg0, .arg1, .result, .status, .err, .irqEn, .irqPend, .swphase]

/-- The packet validator's registers, from 0x100. -/
def bankPvu : List Reg :=
  [.rxCount, .pktStatus, .resyncCnt, .pktOkCnt, .pktErrCnt, .crcCalc, .fHdr, .fSpeed, .fStart, .fEnd, .fTime]

/-- The stepper drive's registers, from 0x200. -/
def bankSdu : List Reg :=
  [.res, .speed, .corrLo, .corrHi, .posLo, .posHi, .angleLo, .angleHi, .stepCntLo, .stepCntHi, .half, .turnNLo,
    .turnNHi]

/-- The sweep sequencer's registers, from 0x300. -/
def bankSsm : List Reg := [.rings, .prerot, .rto, .spring, .ringIdx, .failRing, .sweepAccLo, .sweepAccHi]

/-- The coordinate transform's registers, from 0x400. -/
def bankCtu : List Reg :=
  [.rhoLo, .rhoHi, .phiLo, .phiHi, .thetaLo, .thetaHi, .offsetLo, .offsetHi, .xLo, .xHi, .yLo, .yHi, .zLo, .zHi]

theorem mappedAddress_cases {a : Nat} (h : mappedAddress a = true) :
    a ≤ 0x024 ∨ (0x100 ≤ a ∧ a ≤ 0x128) ∨ (0x140 ≤ a ∧ a ≤ 0x16C) ∨ (0x180 ≤ a ∧ a ≤ 0x1AC) ∨
      (0x200 ≤ a ∧ a ≤ 0x230) ∨ (0x300 ≤ a ∧ a ≤ 0x31C) ∨ (0x400 ≤ a ∧ a ≤ 0x434) := by
  simpa [mappedAddress, or_assoc] using h

theorem exists_reg_of_mapped {a : Nat} (ha : a % 4 = 0) (h : mappedAddress a = true) : ∃ r, Reg.addr r = a := by
  rcases mappedAddress_cases h with hhi | ⟨hlo, hhi⟩ | ⟨hlo, hhi⟩ | ⟨hlo, hhi⟩ | ⟨hlo, hhi⟩ | ⟨hlo, hhi⟩ | ⟨hlo, hhi⟩
  · exact bank_covered (base := 0) (rs := bankHost) (by decide) (by omega) (by simp [bankHost]; omega) (by omega)
  · exact bank_covered (rs := bankPvu) (by decide) hlo (by simp [bankPvu]; omega) (by omega)
  · exact ⟨.pktbufW ⟨(a - 0x140) / 4, by omega⟩, by simp only [Reg.addr]; omega⟩
  · exact ⟨.sample ⟨(a - 0x180) / 4, by omega⟩, by simp only [Reg.addr]; omega⟩
  · exact bank_covered (rs := bankSdu) (by decide) hlo (by simp [bankSdu]; omega) (by omega)
  · exact bank_covered (rs := bankSsm) (by decide) hlo (by simp [bankSsm]; omega) (by omega)
  · exact bank_covered (rs := bankCtu) (by decide) hlo (by simp [bankCtu]; omega) (by omega)

/-- Settles O9: `regAt` inverts the map, and bank by bank the registers' addresses are the table's ranges. -/
theorem registerMapCoversTheTable : Obligations.RegisterMapCoversTheTable := by
  refine ⟨fun _ _ => Reg.addr_injective, fun a _ ha => ⟨?_, exists_reg_of_mapped ha⟩, Reg.addr_aligned, ?_⟩
  · rintro ⟨r, rfl⟩
    exact Reg.addr_mapped r
  · simp only [Reg.addr, implies_true, and_self]

/-! ## A cycle and its phases (10_state R31) -/

theorem cycle_of_reset {c : CycleInput} (hr : c.rst = true) (s : State) : cycle c s = .next (resetCycle c s) := by
  simp [cycle, hr]

theorem cycle_of_next {c : CycleInput} {s b : State} (hr : c.rst = false)
    (hb : busPhase c.access (ticks s) = .next b) : cycle c s = .next (afterBus c.rx b) := by
  simp [cycle, hr, hb]

theorem cycle_of_refused {c : CycleInput} {s : State} {r : Refusal} (hr : c.rst = false)
    (hb : busPhase c.access (ticks s) = .refused r) : cycle c s = .refused r := by
  simp [cycle, hr, hb]

theorem step_of_reset {s : State} (hr : s.nextInput.rst = true) :
    step s = .next (resetCycle s.nextInput { s with inputs := s.inputs.tail }) :=
  (step_eq s).trans (cycle_of_reset hr _)

/-- A step outside reset is the bus phase on the ticked state and then the RX and the level phase. -/
theorem step_of_busPhase {s b : State} (hr : s.nextInput.rst = false)
    (hb : busPhase s.nextInput.access s.atBusPhase = .next b) : step s = .next (afterBus s.nextInput.rx b) :=
  (step_eq s).trans (cycle_of_next hr hb)

theorem step_of_refused {s : State} {r : Refusal} (hr : s.nextInput.rst = false)
    (hb : busPhase s.nextInput.access s.atBusPhase = .refused r) : step s = .refused r :=
  (step_eq s).trans (cycle_of_refused hr hb)

/-- Everything a step outside reset can do when it answers a next state. -/
theorem step_next_noReset {s t : State} (hr : s.nextInput.rst = false) (h : step s = .next t) :
    ∃ b, busPhase s.nextInput.access s.atBusPhase = .next b ∧ t = afterBus s.nextInput.rx b := by
  rcases step_next h with ⟨hrst, _⟩ | ⟨_, b, hb, ht⟩
  · exact absurd (hrst.symm.trans hr) (by simp)
  · exact ⟨b, hb, ht⟩

/-! ### Which accesses the bus phase admits -/

theorem withAligned_of_aligned {a : Addr} (ha : a.toNat % 4 = 0) (k : Host.Outcome State Fault Refusal) :
    withAligned a 4 k = k := by
  simp [withAligned, ha]

theorem withAligned_of_width {a : Addr} {size : Nat} (hs : size ≠ 4) (k : Host.Outcome State Fault Refusal) :
    withAligned a size k = .refused (.accessWidth size) := by
  simp [withAligned, hs]

theorem withAligned_of_misaligned {a : Addr} (ha : a.toNat % 4 ≠ 0) (k : Host.Outcome State Fault Refusal) :
    withAligned a 4 k = .refused (.misaligned a) := by
  simp [withAligned, ha]

/-- Every CMD write is dispatched to an end (30_encoding R152). -/
theorem dispatchCommand_total (v : Word) (s : State) : ∃ t, dispatchCommand v s = .next t := by
  rcases dispatchCommand_cases v s with ⟨i, _, e⟩ | ⟨_, _, e⟩
  · rw [e]; exact exec_total i _
  · exact ⟨_, e⟩

/-- The bus phase completes without an access and with every aligned 32-bit one (60_exceptions R457). -/
theorem busPhase_completes {acc : Option BusAccess} (h : acc = none ∨
      (∃ a, acc = some (.read a 4) ∧ a.toNat % 4 = 0) ∨ (∃ a v, acc = some (.write a 4 v) ∧ a.toNat % 4 = 0))
    (s : State) : ∃ t, busPhase acc s = .next t := by
  rcases h with rfl | ⟨a, rfl, ha⟩ | ⟨a, v, rfl, ha⟩
  · exact ⟨_, rfl⟩
  · exact ⟨_, withAligned_of_aligned ha _⟩
  · rw [busPhase, withAligned_of_aligned ha]
    split
    · exact dispatchCommand_total v _
    · exact ⟨_, rfl⟩

/-- An access that is read or written at `a` with `size` runs through `withAligned`. -/
theorem busPhase_withAligned {acc : Option BusAccess} {a : Addr} {size : Nat} {v : Word}
    (h : acc = some (.read a size) ∨ acc = some (.write a size v)) (s : State) :
    ∃ k, busPhase acc s = withAligned a size k := by
  rcases h with rfl | rfl
  · exact ⟨_, rfl⟩
  · exact ⟨_, rfl⟩

theorem step_completes_iff (s : State) : (∃ t, step s = .next t) ↔
    (s.nextInput.rst = true ∨ s.nextInput.access = none ∨
      (∃ a, s.nextInput.access = some (.read a 4) ∧ a.toNat % 4 = 0) ∨
      (∃ a v, s.nextInput.access = some (.write a 4 v) ∧ a.toNat % 4 = 0)) := by
  cases hr : s.nextInput.rst with
  | true => exact iff_of_true ⟨_, step_of_reset hr⟩ (.inl rfl)
  | false =>
    constructor
    · rintro ⟨t, h⟩
      obtain ⟨b, hb, _⟩ := step_next_noReset hr h
      rcases busPhase_next hb with ⟨ha, _⟩ | ⟨a, hacc, ha, _⟩ | ⟨a, v, hacc, ha, _⟩ | ⟨a, v, hacc, ha, _⟩
      · exact .inr (.inl ha)
      · exact .inr (.inr (.inl ⟨a, hacc, ha⟩))
      · exact .inr (.inr (.inr ⟨a, v, hacc, ha⟩))
      · exact .inr (.inr (.inr ⟨a, v, hacc, by rw [ha]; exact (Reg.addr_aligned .cmd).2⟩))
    · rintro (h | h)
      · cases h
      · obtain ⟨b, hb⟩ := busPhase_completes h s.atBusPhase
        exact ⟨_, step_of_busPhase hr hb⟩

/-- Settles O5: the phases in their order, the accesses that complete, and the two refusals by name. -/
theorem cycleRunsItsPhasesOrRefusesTheAccess : Obligations.CycleRunsItsPhasesOrRefusesTheAccess := by
  refine ⟨fun s s1 s2 b done hr h1 h2 hb => ?_, step_completes_iff, fun s a size v hr hacc => ?_⟩
  · have hticks : s.atBusPhase = s2 := by rw [State.atBusPhase, ticks, h1, h2]
    exact step_of_busPhase hr (hticks ▸ hb)
  · obtain ⟨k, hk⟩ := busPhase_withAligned hacc s.atBusPhase
    refine ⟨fun hs => step_of_refused hr (hk.trans (withAligned_of_width hs k)), fun hs ha => ?_⟩
    subst hs
    exact step_of_refused hr (hk.trans (withAligned_of_misaligned ha k))

/-- Settles O4: an aligned CMD write is dispatched, and dispatch runs the decoded command. -/
theorem stepRunsDecodedCommand : Obligations.StepRunsDecodedCommand := by
  intro s v i t hr hacc hdec _ hexec
  refine step_of_busPhase hr ?_
  rw [hacc, busPhase, withAligned_of_aligned (by decide), if_pos (by decide), dispatchCommand, hdec]
  exact hexec

end Sys2Proof.Machine

namespace Sys2Proof.Machine

/-! ## Command words -/

/-- Only the commands' own codes decode (30_encoding R156). -/
theorem decodeOpcode_ok {opc : Byte} {i : Instr} (h : decodeOpcode opc = .ok i) :
    opc.toNat = (encode i).toNat := by
  unfold decodeOpcode at h
  split at h
  case h_15 => cases h
  all_goals
    rename_i hopc
    cases h
    exact hopc

/-- A word that decodes to a command is the command's encoding (30_encoding R151, R157). -/
theorem eq_encode_of_decode {v : Word} {i : Instr} (h : decode v = .ok i) : v = encode i := by
  rw [decode] at h
  split at h
  · rename_i hmbz
    have hopc := decodeOpcode_ok h
    have hmbz : (mbzField v).toNat = 0 := by rw [hmbz]; rfl
    apply BitVec.eq_of_toNat_eq
    simp only [opcField, BitVec.toNat_setWidth] at hopc
    simp only [mbzField, BitVec.extractLsb'_toNat, Nat.shiftRight_eq_div_pow] at hmbz
    omega
  · cases h

/-! ## What the host's writes change -/

@[simp] theorem State.writeReg_ssm (r : Reg) (v : Word) (s : State) : (s.writeReg r v).ssm = s.ssm := by
  cases r <;> rfl

@[simp] theorem State.writeReg_result (r : Reg) (v : Word) (s : State) :
    (s.writeReg r v).host.result = s.host.result := by
  cases r <;> rfl

@[simp] theorem State.writeReg_lastcmd (r : Reg) (v : Word) (s : State) :
    (s.writeReg r v).host.lastcmd = s.host.lastcmd := by
  cases r <;> rfl

@[simp] theorem State.writeReg_ctu_x (r : Reg) (v : Word) (s : State) : (s.writeReg r v).ctu.x = s.ctu.x := by
  cases r <;> rfl

@[simp] theorem State.writeReg_ctu_y (r : Reg) (v : Word) (s : State) : (s.writeReg r v).ctu.y = s.ctu.y := by
  cases r <;> rfl

@[simp] theorem State.writeReg_ctu_z (r : Reg) (v : Word) (s : State) : (s.writeReg r v).ctu.z = s.ctu.z := by
  cases r <;> rfl

theorem State.writeReg_arg0_other {r : Reg} (hr : r ≠ .arg0) (v : Word) (s : State) :
    (s.writeReg r v).host.arg0 = s.host.arg0 := by
  cases r with
  | arg0 => exact absurd rfl hr
  | _ => rfl

theorem State.writeReg_arg1_other {r : Reg} (hr : r ≠ .arg1) (v : Word) (s : State) :
    (s.writeReg r v).host.arg1 = s.host.arg1 := by
  cases r with
  | arg1 => exact absurd rfl hr
  | _ => rfl

theorem State.writeReg_irqEn_other {r : Reg} (hr : r ≠ .irqEn) (v : Word) (s : State) :
    (s.writeReg r v).host.irqEn = s.host.irqEn := by
  cases r with
  | irqEn => exact absurd rfl hr
  | _ => rfl

theorem State.writeReg_swphase_other {r : Reg} (hr : r ≠ .swphase) (v : Word) (s : State) :
    (s.writeReg r v).host.swphase = s.host.swphase := by
  cases r with
  | swphase => exact absurd rfl hr
  | _ => rfl

theorem State.writeReg_err_other {r : Reg} (hr : r ≠ .err) (v : Word) (s : State) :
    (s.writeReg r v).host.err = s.host.err := by
  cases r with
  | err => exact absurd rfl hr
  | _ => rfl

theorem State.writeReg_irqPend_other {r : Reg} (hr : r ≠ .irqPend) (v : Word) (s : State) :
    (s.writeReg r v).host.irqPend = s.host.irqPend := by
  cases r with
  | irqPend => exact absurd rfl hr
  | _ => rfl

theorem State.writeWord_cases (a : Addr) (v : Word) (s : State) :
    (∃ r, a = BitVec.ofNat 12 (Reg.addr r) ∧ s.writeWord a v = s.writeReg r v) ∨ s.writeWord a v = s := by
  rw [State.writeWord]
  cases h : regAt a.toNat with
  | none => exact .inr rfl
  | some r => exact .inl ⟨r, by rw [regAt_eq_some.1 h, BitVec.ofNat_toNat, BitVec.setWidth_eq], rfl⟩

/-- What the bus phase does, seen from one register `r`: whatever relation `P` to the new state cycles without a
write, writes of other registers and (unless `r` is CMD) commands keep, holds after it, or the host writes `r`. -/
theorem busPhase_keeps_or_writes {acc : Option BusAccess} {s b : State} (h : busPhase acc s = .next b) (r : Reg)
    {P : State → Prop} (hdata : ∀ d, P (s.setReadData d))
    (hwrite : ∀ r' v, r' ≠ r → P ((s.setReadData none).writeReg r' v))
    (hcmd : r ≠ .cmd → ∀ v b, dispatchCommand v (s.setReadData none) = .next b → P b) :
    P b ∨ ∃ v, acc = some (.write (BitVec.ofNat 12 (Reg.addr r)) 4 v) ∧
      (r ≠ .cmd → b = (s.setReadData none).writeReg r v) := by
  rcases busPhase_next h with ⟨_, rfl⟩ | ⟨a, _, _, rfl⟩ | ⟨a, v, hacc, _, _, rfl⟩ | ⟨a, v, hacc, ha, hd⟩
  · exact .inl (hdata _)
  · exact .inl (hdata _)
  · rcases State.writeWord_cases a v (s.setReadData none) with ⟨r', ha, e⟩ | e
    · by_cases hr : r' = r
      · subst hr ha
        exact .inr ⟨v, hacc, fun _ => e⟩
      · exact .inl (e ▸ hwrite r' v hr)
    · exact .inl (by rw [e]; exact hdata _)
  · by_cases hr : r = .cmd
    · subst hr
      exact .inr ⟨v, by rw [hacc, ← ha, BitVec.ofNat_toNat, BitVec.setWidth_eq], fun hne => absurd rfl hne⟩
    · exact .inl (hcmd hr v b hd)

/-- `busPhase_keeps_or_writes` for a field: a change of it comes with a write of its register. -/
theorem busPhase_field_changed {α : Type} {acc : Option BusAccess} {s b : State} (h : busPhase acc s = .next b)
    (r : Reg) (f : State → α) (hdata : ∀ d, f (s.setReadData d) = f s)
    (hwrite : ∀ r' v u, r' ≠ r → f (State.writeReg r' v u) = f u)
    (hcmd : r ≠ .cmd → ∀ v b, dispatchCommand v (s.setReadData none) = .next b → f b = f s) (hne : f b ≠ f s) :
    ∃ v, acc = some (.write (BitVec.ofNat 12 (Reg.addr r)) 4 v) := by
  rcases busPhase_keeps_or_writes h r (P := fun b => f b = f s) hdata
    (fun r' v hr => (hwrite r' v _ hr).trans (hdata _)) hcmd with hb | ⟨v, hacc, _⟩
  · exact absurd hb hne
  · exact ⟨v, hacc⟩

/-! ## What a CMD write changes -/

theorem dispatchCommand_frame {v : Word} {s b : State} (h : dispatchCommand v s = .next b) :
    CommandFrame (s.setLastcmd v) b := by
  rcases dispatchCommand_cases v s with ⟨i, _, e⟩ | ⟨_, _, e⟩
  · exact exec_frame (e.symm.trans h)
  · cases e.symm.trans h
    constructor <;> rfl

/-- A CMD write of any word but CTU_XFORM's leaves the coordinate transform unit (43_coordinate_transform R382). -/
theorem dispatchCommand_ctu {v : Word} {s b : State} (h : dispatchCommand v s = .next b)
    (hv : v ≠ encode .ctuXform) : b.ctu = s.ctu := by
  rcases dispatchCommand_cases v s with ⟨i, hdec, e⟩ | ⟨_, _, e⟩
  · have hi : i ≠ .ctuXform := fun hi => hv (hi ▸ eq_encode_of_decode hdec)
    exact (exec_unitFrame (e.symm.trans h)).ctu hi
  · cases e.symm.trans h
    rfl

theorem getLsbD_or_of_left {w : Nat} {a : BitVec w} {k : Nat} (h : a.getLsbD k = true) (b : BitVec w) :
    (a ||| b).getLsbD k = true := by
  rw [BitVec.getLsbD_or, h, Bool.true_or]

theorem dispatchCommand_err_mono {v : Word} {s b : State} (h : dispatchCommand v s = .next b) {k : Nat}
    (hk : s.host.err.getLsbD k = true) : b.host.err.getLsbD k = true := by
  rcases dispatchCommand_cases v s with ⟨i, _, e⟩ | ⟨_, _, e⟩
  · rcases exec_err_cases (e.symm.trans h) with e' | e' <;> rw [e']
    · exact hk
    · exact getLsbD_or_of_left hk _
  · cases e.symm.trans h
    exact getLsbD_or_of_left hk _

theorem dispatchCommand_irqPend_mono {v : Word} {s b : State} (h : dispatchCommand v s = .next b) {k : Nat}
    (hk : s.host.irqPend.getLsbD k = true) : b.host.irqPend.getLsbD k = true := by
  rcases dispatchCommand_cases v s with ⟨i, _, e⟩ | ⟨_, _, e⟩
  · rcases exec_irqPend_cases (e.symm.trans h) with e' | ⟨_, e', _⟩ <;> rw [e']
    · exact hk
    · exact getLsbD_or_of_left hk _
  · cases e.symm.trans h
    exact getLsbD_or_of_left hk _

/-! ## The phases other than the bus phase

They leave the registers that the host or a command writes, and of the sticky registers they only set bits. -/

/-- From `s` to `t` no register of the host changes, but for sticky bits that are set. -/
structure HostQuiet (s t : State) : Prop where
  result : t.host.result = s.host.result
  lastcmd : t.host.lastcmd = s.host.lastcmd
  arg0 : t.host.arg0 = s.host.arg0
  arg1 : t.host.arg1 = s.host.arg1
  irqEn : t.host.irqEn = s.host.irqEn
  swphase : t.host.swphase = s.host.swphase
  ctu : t.ctu = s.ctu
  err : ∀ k, s.host.err.getLsbD k = true → t.host.err.getLsbD k = true
  irqPend : ∀ k, s.host.irqPend.getLsbD k = true → t.host.irqPend.getLsbD k = true

namespace HostQuiet

theorem of_eq {s t : State} (hh : t.host = s.host) (hc : t.ctu = s.ctu) : HostQuiet s t := by
  constructor <;> simp [hh, hc]

theorem trans {s t u : State} (h : HostQuiet s t) (h' : HostQuiet t u) : HostQuiet s u where
  result := h'.result.trans h.result
  lastcmd := h'.lastcmd.trans h.lastcmd
  arg0 := h'.arg0.trans h.arg0
  arg1 := h'.arg1.trans h.arg1
  irqEn := h'.irqEn.trans h.irqEn
  swphase := h'.swphase.trans h.swphase
  ctu := h'.ctu.trans h.ctu
  err k hk := h'.err k (h.err k hk)
  irqPend k hk := h'.irqPend k (h.irqPend k hk)

theorem pend (src : IrqSource) (s : State) : HostQuiet s (s.pend src) where
  result := rfl
  lastcmd := rfl
  arg0 := rfl
  arg1 := rfl
  irqEn := rfl
  swphase := rfl
  ctu := rfl
  err _ hk := hk
  irqPend _ hk := getLsbD_or_of_left hk _

theorem setErr (e : ErrBit) (s : State) : HostQuiet s (s.setErr e) where
  result := rfl
  lastcmd := rfl
  arg0 := rfl
  arg1 := rfl
  irqEn := rfl
  swphase := rfl
  ctu := rfl
  err _ hk := getLsbD_or_of_left hk _
  irqPend _ hk := hk

theorem pend_of_eq {s t : State} (src : IrqSource) (hh : t.host = s.host) (hc : t.ctu = s.ctu) :
    HostQuiet s (t.pend src) :=
  (of_eq hh hc).trans (pend src t)

theorem enterRingWait (s : State) : HostQuiet s s.enterRingWait := pend_of_eq .ringReq (by rfl) (by rfl)

theorem enterReturn (c : SeqEnd) (s : State) : HostQuiet s (s.enterReturn c) := by
  rcases s.enterReturn_cases c with ⟨_, e⟩ | ⟨_, e⟩ <;> rw [e]
  · exact pend_of_eq .sweepDone (by rfl) (by rfl)
  · exact of_eq rfl rfl

theorem recordTimeout (s : State) : HostQuiet s s.recordTimeout :=
  have h : HostQuiet s { s with ssm := { s.ssm with failRing := s.ssm.ringIdx } } := of_eq rfl rfl
  (h.trans (setErr .ringTimeout _)).trans (pend .ringTimeout _)

theorem turnComplete (s : State) : HostQuiet s (turnComplete s) := by
  rcases turnComplete_cases s with ⟨_, e⟩ | ⟨_, e⟩ <;> rw [e]
  · exact pend_of_eq .turnDone (by rfl) (by rfl)
  · exact of_eq rfl rfl

theorem sduTick (s : State) : HostQuiet s (sduTick s).1 := by
  rcases sduTick_cases s with ⟨_, e⟩ | ⟨_, e⟩ | ⟨_, _, e⟩ | ⟨_, _, e⟩ | ⟨_, _, _, e⟩ | ⟨_, _, _, e⟩ <;> rw [e]
  case inr.inr.inr.inr.inr => -- the last pulse: TURN_COMPLETE
    have h : HostQuiet s s.countPulse := of_eq rfl rfl
    exact h.trans (turnComplete _)
  all_goals exact of_eq rfl rfl

theorem ssmTick (done : Bool) (s : State) : HostQuiet s (ssmTick done s) := by
  have add (n : DWord) : HostQuiet s (s.addSweep n) := of_eq rfl rfl
  have count : HostQuiet s s.countRto := of_eq rfl rfl
  rcases ssmTick_cases done s with ⟨_, e⟩ | ⟨_, _, _, e⟩ | ⟨_, _, _, e⟩ | ⟨_, _, _, e⟩ |
    ⟨_, _, _, _, e⟩ | ⟨_, _, _, _, e⟩ | ⟨_, _, e⟩ | ⟨_, _, e⟩ | ⟨_, _, e⟩ <;> rw [e]
  · exact of_eq rfl rfl
  · exact (add _).trans (enterReturn _ _)
  · exact (add _).trans (enterRingWait _)
  · exact (add _).trans (enterReturn _ _)
  · exact (add _).trans (enterReturn _ _)
  · exact (add _).trans (enterRingWait _)
  · exact pend_of_eq .sweepDone (by rfl) (by rfl)
  · exact (count.trans (recordTimeout _)).trans (enterReturn _ _)
  · exact count

theorem ticks (s : State) : HostQuiet s (ticks s) := (sduTick s).trans (ssmTick _ _)

theorem rxPhase (rx : Option Byte) (s : State) : HostQuiet s (rxPhase rx s) := by
  rcases rxPhase_cases rx s with ⟨_, e⟩ | ⟨_, _, _, e⟩ | ⟨_, _, _, e⟩ <;> rw [e]
  · exact of_eq rfl rfl
  · exact of_eq rfl rfl
  · exact (setErr .rxOverflow s).trans (pend .rxOverflow _)

theorem levelPhase (s : State) : HostQuiet s (levelPhase s) := by
  rcases levelPhase_cases s with ⟨_, e⟩ | ⟨_, e⟩ <;> rw [e]
  · exact (pend .rxReady s).trans (of_eq rfl rfl)
  · exact of_eq rfl rfl

theorem afterBus (rx : Option Byte) (s : State) : HostQuiet s (afterBus rx s) := (rxPhase rx s).trans (levelPhase _)

theorem atBusPhase (s : State) : HostQuiet s s.atBusPhase :=
  (of_eq rfl rfl : HostQuiet s { s with inputs := s.inputs.tail }).trans (ticks _)

end HostQuiet

/-! ## The sticky registers -/

theorem busPhase_err_cleared {acc : Option BusAccess} {s b : State} (h : busPhase acc s = .next b) {k : Nat}
    (hs : s.host.err.getLsbD k = true) (hb : b.host.err.getLsbD k = false) :
    ∃ v : Word, acc = some (.write 0x018 4 v) ∧ v.getLsbD k = true := by
  rcases busPhase_keeps_or_writes h .err (P := fun b => b.host.err.getLsbD k = true) (fun _ => hs)
    (fun r' v hr => by rw [State.writeReg_err_other hr]; exact hs)
    (fun _ v b hd => dispatchCommand_err_mono hd hs) with hb' | ⟨v, hacc, e⟩
  · exact absurd (hb'.symm.trans hb) (by simp)
  · refine ⟨v, hacc, ?_⟩
    rw [e (by simp)] at hb
    simpa [State.writeReg, hs, BitVec.lt_of_getLsbD hs] using hb

theorem busPhase_irqPend_cleared {acc : Option BusAccess} {s b : State} (h : busPhase acc s = .next b) {k : Nat}
    (hs : s.host.irqPend.getLsbD k = true) (hb : b.host.irqPend.getLsbD k = false) :
    ∃ v : Word, acc = some (.write 0x020 4 v) ∧ v.getLsbD k = true := by
  rcases busPhase_keeps_or_writes h .irqPend (P := fun b => b.host.irqPend.getLsbD k = true) (fun _ => hs)
    (fun r' v hr => by rw [State.writeReg_irqPend_other hr]; exact hs)
    (fun _ v b hd => dispatchCommand_irqPend_mono hd hs) with hb' | ⟨v, hacc, e⟩
  · exact absurd (hb'.symm.trans hb) (by simp)
  · refine ⟨v, hacc, ?_⟩
    rw [e (by simp)] at hb
    simpa [State.writeReg, hs, BitVec.lt_of_getLsbD hs] using hb

/-- Settles O51: only the bus phase can clear a sticky bit, and in it only the host's write of the register. -/
theorem stickyBitsAreClearedOnlyByTheHost : Obligations.StickyBitsAreClearedOnlyByTheHost := by
  intro s t hr h
  obtain ⟨b, hb, rfl⟩ := step_next_noReset hr h
  have before := HostQuiet.atBusPhase s
  have later := HostQuiet.afterBus s.nextInput.rx b
  refine ⟨fun k hk ht => busPhase_err_cleared hb (before.err k hk) ?_,
    fun k hk ht => busPhase_irqPend_cleared hb (before.irqPend k hk) ?_⟩
  · exact Bool.eq_false_iff.2 fun hbk => by simp [later.err k hbk] at ht
  · exact Bool.eq_false_iff.2 fun hbk => by simp [later.irqPend k hbk] at ht

/-! ## The registers with one cause of change -/

/-- FAIL_RING changes in the ticks only, at the ring timeout (42_sweep_sequencer R332). -/
theorem atBusPhase_failRing (s : State) : s.atBusPhase.ssm.failRing = s.ssm.failRing ∨
    (s.ssm.state = .ringWait ∧ s.ssm.rto ≠ 0 ∧ s.atBusPhase.ssm.failRing = s.ssm.ringIdx ∧
      s.atBusPhase.ssm.seqEnd = .timeout) := by
  have f := sduTick_frame { s with inputs := s.inputs.tail }
  rw [State.atBusPhase, ticks]
  generalize sduTick { s with inputs := s.inputs.tail } = p at f
  have hssm : p.1.ssm = s.ssm := f.ssm
  rcases ssmTick_cases p.2 p.1 with ⟨_, e⟩ | ⟨_, _, _, e⟩ | ⟨_, _, _, e⟩ | ⟨_, _, _, e⟩ |
    ⟨_, _, _, _, e⟩ | ⟨_, _, _, _, e⟩ | ⟨_, _, e⟩ | ⟨hw, ⟨hrto, _⟩, e⟩ | ⟨_, _, e⟩
  case inr.inr.inr.inr.inr.inr.inr.inl => -- the ring timeout runs out
    rw [hssm] at hw hrto
    exact .inr ⟨hw, hrto, by rw [e]; simp [hssm], by rw [e]; simp⟩
  all_goals
    rw [e]
    simp [hssm]

theorem busPhase_failRing {acc : Option BusAccess} {s b : State} (h : busPhase acc s = .next b) :
    b.ssm.failRing = s.ssm.failRing := by
  rcases busPhase_next h with ⟨_, rfl⟩ | ⟨a, _, _, rfl⟩ | ⟨a, v, _, _, _, rfl⟩ | ⟨a, v, _, _, hd⟩
  · rfl
  · rfl
  · rcases State.writeWord_cases a v (s.setReadData none) with ⟨r, _, e⟩ | e <;> rw [e]
    · simp
    · rfl
  · exact (dispatchCommand_frame hd).failRing

theorem afterBus_ssm (rx : Option Byte) (s : State) : (afterBus rx s).ssm = s.ssm := by
  have hrx : (rxPhase rx s).ssm = s.ssm := by
    rcases rxPhase_cases rx s with ⟨_, e⟩ | ⟨_, _, _, e⟩ | ⟨_, _, _, e⟩ <;> simp [e]
  rw [afterBus]
  rcases levelPhase_cases (rxPhase rx s) with ⟨_, e⟩ | ⟨_, e⟩ <;> rw [e] <;> exact hrx

/-- X, Y and Z change by a CMD write of CTU_XFORM's word only (43_coordinate_transform R382). -/
theorem busPhase_results_changed {acc : Option BusAccess} {s b : State} (h : busPhase acc s = .next b)
    (hne : b.ctu.x ≠ s.ctu.x ∨ b.ctu.y ≠ s.ctu.y ∨ b.ctu.z ≠ s.ctu.z) :
    acc = some (.write 0x004 4 (encode .ctuXform)) := by
  rcases busPhase_next h with ⟨_, rfl⟩ | ⟨a, _, _, rfl⟩ | ⟨a, v, _, _, _, rfl⟩ | ⟨a, v, hacc, ha, hd⟩
  · simp at hne
  · simp at hne
  · rcases State.writeWord_cases a v (s.setReadData none) with ⟨r, _, e⟩ | e <;> rw [e] at hne <;> simp at hne
  · have hv : v = encode .ctuXform := by
      by_contra hv
      rw [dispatchCommand_ctu hd hv] at hne
      simp at hne
    rw [hacc, hv, show a = (0x004 : Addr) from BitVec.eq_of_toNat_eq ha]

/-- Settles O52: the ticks and the phases after the bus phase leave these registers, but for FAIL_RING at the timeout;
in the bus phase each changes by its own write. -/
theorem hostRegistersChangeOnlyByTheirWrites : Obligations.HostRegistersChangeOnlyByTheirWrites := by
  intro s t hr h
  obtain ⟨b, hb, rfl⟩ := step_next_noReset hr h
  have before := HostQuiet.atBusPhase s
  have later := HostQuiet.afterBus s.nextInput.rx b
  rw [later.result, later.lastcmd, later.irqEn, later.swphase, later.arg0, later.arg1, later.ctu, afterBus_ssm,
    ← before.result, ← before.lastcmd, ← before.irqEn, ← before.swphase, ← before.arg0, ← before.arg1, ← before.ctu]
  refine ⟨fun hne => ?_, fun hne => ?_, fun hne => ?_, fun hne => ?_, fun hne => ?_,
    busPhase_results_changed hb, fun hne => ?_⟩
  · rcases hne with hne | hne
    · exact busPhase_field_changed hb .cmd (·.host.result) (fun _ => rfl)
        (fun r' v u _ => u.writeReg_result r' v) (fun hr => absurd rfl hr) hne
    · exact busPhase_field_changed hb .cmd (·.host.lastcmd) (fun _ => rfl)
        (fun r' v u _ => u.writeReg_lastcmd r' v) (fun hr => absurd rfl hr) hne
  · exact busPhase_field_changed hb .irqEn (·.host.irqEn) (fun _ => rfl)
      (fun r' v u hr => State.writeReg_irqEn_other hr v u) (fun _ v b hd => (dispatchCommand_frame hd).irqEn) hne
  · exact busPhase_field_changed hb .swphase (·.host.swphase) (fun _ => rfl)
      (fun r' v u hr => State.writeReg_swphase_other hr v u) (fun _ v b hd => (dispatchCommand_frame hd).swphase) hne
  · exact busPhase_field_changed hb .arg0 (·.host.arg0) (fun _ => rfl)
      (fun r' v u hr => State.writeReg_arg0_other hr v u) (fun _ v b hd => (dispatchCommand_frame hd).arg0) hne
  · exact busPhase_field_changed hb .arg1 (·.host.arg1) (fun _ => rfl)
      (fun r' v u hr => State.writeReg_arg1_other hr v u) (fun _ v b hd => (dispatchCommand_frame hd).arg1) hne
  · rw [busPhase_failRing hb] at hne ⊢
    exact (atBusPhase_failRing s).resolve_left hne

/-! ## The output lines -/

/-- Two sets of bits meet in a common bit. -/
theorem and_ne_zero_iff {w : Nat} (a b : BitVec w) :
    a &&& b ≠ 0 ↔ ∃ k, k < w ∧ a.getLsbD k = true ∧ b.getLsbD k = true := by
  constructor
  · intro h
    by_contra hno
    refine h (BitVec.eq_of_getLsbD_eq fun k hk => ?_)
    simpa [hk] using fun ha => Bool.eq_false_iff.2 fun hb => hno ⟨k, hk, ha, hb⟩
  · rintro ⟨k, _, ha, hb⟩ h
    have hk := congrArg (BitVec.getLsbD · k) h
    simp [ha, hb] at hk

/-- Settles O53: the level phase, the last of the cycle, establishes `LevelInv`. -/
theorem linesFollowTheStateEveryCycle : Obligations.LinesFollowTheStateEveryCycle := by
  intro s t hr h
  obtain ⟨b, _, rfl⟩ := step_next_noReset hr h
  obtain ⟨hl, hrx⟩ := levelPhase_levelInv (rxPhase s.nextInput.rx b)
  rw [afterBus]
  generalize levelPhase (rxPhase s.nextInput.rx b) = t at hl hrx
  refine ⟨?_, ?_, ?_, ?_, hrx⟩ <;> rw [hl]
  · rfl
  · rfl
  · cases hm : t.sdu.mscode <;> simp [State.linesOf, MsTable.at, hm]
  · rw [State.linesOf, bne_iff_ne, and_ne_zero_iff]

end Sys2Proof.Machine

namespace Sys2Proof.Machine

/-! ## What the registers show (10_state section 4) -/

/-! ### Words put together from fields -/

/-- A field shown in the low bits of a register, zeros above it. -/
theorem setWidth_eq_zero_append {w : Nat} (n : Nat) (v : BitVec w) : v.setWidth (n + w) = 0#n ++ v := by
  apply BitVec.eq_of_getLsbD_eq
  intro i hi
  rw [BitVec.getLsbD_setWidth, BitVec.getLsbD_append, BitVec.getLsbD_zero]
  split
  · simp [hi]
  · simp [BitVec.getLsbD_of_ge v i (by omega)]

/-- The low half of a register as two bytes, instead of one 16-bit field. -/
theorem append_two_bytes (x : BitVec 16) (hi lo : Byte) : x ++ (hi ++ lo) = x ++ hi ++ lo :=
  BitVec.append_assoc.symm

theorem lo32_eq (v : DWord) : lo32 v = v.extractLsb' 0 32 := BitVec.setWidth_eq_extractLsb' (by decide)

theorem hi32_eq (v : DWord) : hi32 v = v.extractLsb' 32 32 := rfl

/-! ### The packet's bytes and the field views (20_memory R102) -/

theorem State.pktByte_of_lt {s : State} {j : Nat} (hj : j < 47) : s.pktByte j = Memory.read s.pvu.pktbuf j :=
  if_pos hj

/-- Byte 47 does not exist and reads 0 (10_state R54). -/
theorem State.pktByte_of_ge {s : State} {j : Nat} (hj : 47 ≤ j) : s.pktByte j = 0 := if_neg (not_lt.2 hj)

/-- A 16-bit field is its two bytes, the first one low (10_state R53). -/
theorem State.field16_eq (s : State) (o : Nat) : s.field16 o = 0#16 ++ s.pktByte (o + 1) ++ s.pktByte o := by
  rw [State.field16, le16]
  exact (setWidth_eq_zero_append 16 _).trans (append_two_bytes _ _ _)

/-- A sample is its distance's two bytes and its intensity (10_state R55). -/
theorem State.sampleWord_eq (s : State) (i : Nat) :
    s.sampleWord i = 0#8 ++ s.pktByte (8 + 3 * i) ++ s.pktByte (7 + 3 * i) ++ s.pktByte (6 + 3 * i) := by
  rw [State.sampleWord, le16]
  exact append_two_bytes _ _ _

/-- CRC_CALC covers bytes 0 to 45 (10_state R51). -/
theorem State.crcCalcWord_eq {s : State} {b : Nat → Byte} (hb : ∀ j, j < 47 → Memory.read s.pvu.pktbuf j = b j) :
    s.crcCalcWord = 0#24 ++ crc8 s.params.crcTable ((List.range 46).map b) := by
  have hbytes : Memory.bytes s.pvu.pktbuf CRC_POS = (List.range 46).map b :=
    List.map_congr_left fun j hj => hb j (by have := List.mem_range.1 hj; simp only [CRC_POS] at this; omega)
  rw [State.crcCalcWord, hbytes]
  exact setWidth_eq_zero_append 24 _

/-- The last window word has no byte 47 (10_state R54). -/
theorem State.pktbufWord_eq {s : State} {b : Nat → Byte} (hb : ∀ j, j < 47 → s.pktByte j = b j) (k : Fin 12) :
    s.pktbufWord k.val = (if k.val = 11 then 0#8 else b (4 * k.val + 3)) ++ b (4 * k.val + 2) ++
      b (4 * k.val + 1) ++ b (4 * k.val) := by
  have hk := k.isLt
  have htop : s.pktByte (4 * k.val + 3) = if k.val = 11 then 0#8 else b (4 * k.val + 3) := by
    split
    · exact State.pktByte_of_ge (by omega)
    · exact hb _ (by omega)
  rw [State.pktbufWord, htop, hb _ (by omega), hb _ (by omega), hb _ (by omega)]

/-! ### The codes in the registers -/

/-- RES holds the selector triple over the denominator and the code (10_state R56, 41_stepper_drive R260). -/
theorem State.resWord_eq (s : State) : s.resWord = 0#13 ++
    (match s.sdu.mscode with
      | .full => s.params.msTable.full ++ 0x0100#16 | .half => s.params.msTable.half ++ 0x0201#16
      | .quarter => s.params.msTable.quarter ++ 0x0402#16 | .eighth => s.params.msTable.eighth ++ 0x0803#16
      | .sixteenth => s.params.msTable.sixteenth ++ 0x1004#16) := by
  have layout (m : BitVec 3) (d : BitVec 5) (c : BitVec 3) :
      0#13 ++ m ++ 0#3 ++ d ++ 0#5 ++ c = 0#13 ++ (m ++ (0#3 ++ (d ++ (0#5 ++ c)))) :=
    calc 0#13 ++ m ++ 0#3 ++ d ++ 0#5 ++ c
      _ = 0#13 ++ m ++ 0#3 ++ d ++ (0#5 ++ c) := BitVec.append_assoc
      _ = 0#13 ++ m ++ 0#3 ++ (d ++ (0#5 ++ c)) := BitVec.append_assoc
      _ = 0#13 ++ m ++ (0#3 ++ (d ++ (0#5 ++ c))) := BitVec.append_assoc
      _ = 0#13 ++ (m ++ (0#3 ++ (d ++ (0#5 ++ c)))) := BitVec.append_assoc
  rw [State.resWord, layout]
  cases s.sdu.mscode <;> rfl

section Status

/-! ### STATUS, field by field (10_state R42) -/

open BitVec

variable (s : State)

/-- The one-bit fields of STATUS and its bits that read 0. -/
theorem State.statusWord_bits :
    s.statusWord.getLsbD 0 = decide (s.sdu.state ≠ .idle) ∧ s.statusWord.getLsbD 1 = decide (s.ssm.state ≠ .idle) ∧
    s.statusWord.getLsbD 2 = decide (s.ssm.state = .ringWait) ∧ s.statusWord.getLsbD 3 = s.ssm.cancelPend ∧
    s.statusWord.getLsbD 4 = s.pvu.pktValid ∧ s.statusWord.getLsbD 5 = s.lines.step ∧
    s.statusWord.getLsbD 6 = s.lines.dir ∧ s.statusWord.getLsbD 7 = s.lines.irq ∧
    s.statusWord.getLsbD 11 = false ∧ s.statusWord.getLsbD 15 = false := by
  simp only [State.statusWord, getLsbD_append]
  refine ⟨?_, ?_, ?_, ?_, ?_, ?_, ?_, ?_, ?_, ?_⟩ <;> simp <;> rfl

/-- The wider fields of STATUS. -/
theorem State.statusWord_fields :
    s.statusWord.extractLsb' 8 3 = s.lines.ms ∧ s.statusWord.extractLsb' 12 3 = s.ssm.state.code ∧
    s.statusWord.extractLsb' 16 2 = s.ssm.seqEnd.code ∧ s.statusWord.extractLsb' 18 2 = s.sdu.state.code ∧
    s.statusWord.extractLsb' 20 12 = 0 := by
  rw [State.statusWord]
  simp (disch := omega) only [extractLsb'_append_eq_of_le, extractLsb'_append_eq_of_add_le]
  refine ⟨?_, ?_, ?_, ?_, ?_⟩ <;> simp

end Status

/-- Settles O15: each computed register by its own lemma, every other register by its definition. -/
theorem computedRegistersShowTheState : Obligations.ComputedRegistersShowTheState := by
  intro s b hb
  have hbyte (j : Nat) (hj : j < 47) : s.pktByte j = b j := (State.pktByte_of_lt hj).trans (hb j hj)
  have field (o : Nat) (ho : o + 1 < 47) : s.field16 o = 0#16 ++ b (o + 1) ++ b o := by
    rw [State.field16_eq, hbyte _ ho, hbyte _ (by omega)]
  have sample (i : Fin 12) :
      s.sampleWord i.val = 0#8 ++ b (8 + 3 * i.val) ++ b (7 + 3 * i.val) ++ b (6 + 3 * i.val) := by
    have hi := i.isLt
    rw [State.sampleWord_eq, hbyte _ (by omega), hbyte _ (by omega), hbyte _ (by omega)]
  have hdr : s.fHdrWord = 0#8 ++ b 46 ++ b 1 ++ b 0 := by
    rw [State.fHdrWord, hbyte 46 (by decide), hbyte 1 (by decide), hbyte 0 (by decide)]
  have result : s.regValue .result = (match s.host.result with
      | .ok => 0 | .pktLength => 1 | .pktSentinel => 2 | .pktCrc => 3 | .invalidResolution => 4 | .invalidSpeed => 5
      | .stepsTooSmall => 6 | .resolutionTooFine => 7 | .busy => 8 | .illegalCommand => 9 | .invalidRings => 10
      | .invalidCorr => 11 | .ctuNonfinite => 12 | .notInRingWait => 13 | .noSweep => 14) := by
    cases h : s.host.result <;> simp [State.regValue, h, ResultCode.code]
  have pktStatus : s.regValue .pktStatus = 0#24 ++
      (match s.pvu.pktLast with | .ok => 0#4 | .length => 1#4 | .sentinel => 2#4 | .crc => 3#4) ++
      0#3 ++ BitVec.ofBool s.pvu.pktValid := by
    cases h : s.pvu.pktLast <;> simp [State.regValue, State.pktStatusWord, h, PktVerdict.code]
  have seqState : s.ssm.state.code =
      (match s.ssm.state with | .idle => 0 | .prerot => 1 | .ringWait => 2 | .advance => 3 | .returning => 4) := by
    cases s.ssm.state <;> rfl
  have seqEnd : s.ssm.seqEnd.code =
      (match s.ssm.seqEnd with | .none => 0 | .complete => 1 | .cancelled => 2 | .timeout => 3) := by
    cases s.ssm.seqEnd <;> rfl
  have sduState : s.sdu.state.code =
      (match s.sdu.state with | .idle => 0 | .setup => 1 | .high => 2 | .low => 3) := by
    cases s.sdu.state <;> rfl
  obtain ⟨b0, b1, b2, b3, b4, b5, b6, b7, b11, b15⟩ := s.statusWord_bits
  obtain ⟨fms, fseq, fend, fsdu, ftop⟩ := s.statusWord_fields
  exact ⟨rfl, setWidth_eq_zero_append 24 _, rfl, rfl, result, setWidth_eq_zero_append 29 _,
    setWidth_eq_zero_append 25 _, setWidth_eq_zero_append 25 _, setWidth_eq_zero_append 29 _, rfl,
    pktStatus, rfl, rfl, rfl, s.resWord_eq, rfl, rfl, rfl, rfl, rfl, rfl, rfl, rfl,
    lo32_eq _, hi32_eq _, lo32_eq _, hi32_eq _, lo32_eq _, hi32_eq _, lo32_eq _, hi32_eq _, lo32_eq _, hi32_eq _,
    lo32_eq _, hi32_eq _, lo32_eq _, hi32_eq _, lo32_eq _, hi32_eq _, lo32_eq _, hi32_eq _, lo32_eq _, hi32_eq _,
    lo32_eq _, hi32_eq _, lo32_eq _, hi32_eq _, lo32_eq _, hi32_eq _,
    State.pktbufWord_eq hbyte, hdr, field 2 (by decide), field 4 (by decide), field 42 (by decide),
    field 44 (by decide), sample, State.crcCalcWord_eq hb, b0, b1, b2, b3, b4, b5, b6, b7, fms, b11,
    fseq.trans seqState, b15, fend.trans seqEnd, fsdu.trans sduState, ftop⟩

end Sys2Proof.Machine

namespace Sys2Proof.Machine

/-! ## Register accesses (20_memory R106, R107) -/

/-! ### Mapped and unmapped addresses -/

theorem regAt_eq_none {a : Nat} (h : ∀ r, Reg.addr r ≠ a) : regAt a = none :=
  Option.eq_none_iff_forall_ne_some.2 fun r hr => h r (regAt_eq_some.1 hr)

/-- No register stands outside the ranges of the map (10_state R36). -/
theorem addr_ne_of_unmapped {a : Nat} (h : mappedAddress a = false) (r : Reg) : Reg.addr r ≠ a := by
  rintro rfl
  exact absurd (Reg.addr_mapped r) (by simp [h])

theorem State.readWord_of_addr {a : Addr} {r : Reg} (h : Reg.addr r = a.toNat) (s : State) :
    s.readWord a = s.regValue r := by
  rw [State.readWord, regAt_eq_some.2 h]

theorem State.readWord_unmapped {a : Addr} (h : ∀ r, Reg.addr r ≠ a.toNat) (s : State) : s.readWord a = 0 := by
  rw [State.readWord, regAt_eq_none h]

theorem State.writeWord_unmapped {a : Addr} (h : ∀ r, Reg.addr r ≠ a.toNat) (v : Word) (s : State) :
    s.writeWord a v = s := by
  rw [State.writeWord, regAt_eq_none h]

/-! ### The bus phase of each kind of access -/

theorem busPhase_none (s : State) : busPhase none s = .next (s.setReadData none) := rfl

theorem busPhase_read {a : Addr} (ha : a.toNat % 4 = 0) (s : State) :
    busPhase (some (.read a 4)) s = .next (s.setReadData (some (s.readWord a))) := withAligned_of_aligned ha _

theorem busPhase_write {a : Addr} (ha : a.toNat % 4 = 0) (hc : a.toNat ≠ Reg.addr .cmd) (v : Word) (s : State) :
    busPhase (some (.write a 4 v)) s = .next ((s.setReadData none).writeWord a v) := by
  rw [busPhase, withAligned_of_aligned ha, if_neg hc]

theorem busPhase_writeCmd (v : Word) (s : State) :
    busPhase (some (.write 0x004 4 v)) s = dispatchCommand v (s.setReadData none) := by
  rw [busPhase, withAligned_of_aligned (by decide), if_pos (by decide)]

/-- Settles O10: no register stands at an unmapped address, so the read finds none and the write meets none. -/
theorem unmappedReadsZeroAndIgnoresWrites : Obligations.UnmappedReadsZeroAndIgnoresWrites := by
  intro s a v ha hmap
  have hnone := addr_ne_of_unmapped hmap
  constructor
  · rw [busPhase_read ha, State.readWord_unmapped hnone]
    rfl
  · rw [busPhase_write ha (hnone .cmd).symm, State.writeWord_unmapped hnone]
    rfl

/-! ### The phases around the bus phase -/

/-- `step_of_busPhase` for a given environment, which the ticks do not see. -/
theorem step_withNextInput {s b : State} {acc : Option BusAccess} (rx : Option Byte)
    (hb : busPhase acc s.atBusPhase = .next b) :
    step (s.withNextInput ⟨false, acc, rx⟩) = .next (afterBus rx b) :=
  step_of_busPhase (s := s.withNextInput ⟨false, acc, rx⟩) rfl hb

theorem rxPhase_setReadData (rx : Option Byte) (d : Option Word) (s : State) :
    rxPhase rx (s.setReadData d) = (rxPhase rx s).setReadData d := by
  cases rx with
  | none => rfl
  | some b =>
    rw [rxPhase, rxPhase, apply_ite (State.setReadData d)]
    rfl

theorem sampleRxReady_setReadData (d : Option Word) (s : State) :
    sampleRxReady (s.setReadData d) = (sampleRxReady s).setReadData d := by
  rw [sampleRxReady, sampleRxReady, apply_ite (State.setReadData d)]
  rfl

/-- The phases after the bus phase neither read nor write the returned value. -/
theorem afterBus_setReadData (rx : Option Byte) (d : Option Word) (s : State) :
    afterBus rx (s.setReadData d) = (afterBus rx s).setReadData d := by
  rw [afterBus, levelPhase, rxPhase_setReadData, sampleRxReady_setReadData]
  rfl

/-- A cycle without an access and the same cycle with an aligned read differ in the returned value only. -/
theorem step_read (s : State) {a : Addr} (ha : a.toNat % 4 = 0) (rx : Option Byte) :
    step (s.withNextInput ⟨false, some (.read a 4), rx⟩) =
      .next ((afterBus rx (s.atBusPhase.setReadData none)).setReadData (some (s.atBusPhase.readWord a))) := by
  rw [step_withNextInput rx (busPhase_read ha _), afterBus_setReadData, afterBus_setReadData]
  rfl

/-- Settles O8: the read's cycle is the cycle without an access but for the returned value, which the register map
determines. -/
theorem readReturnsValueAndChangesNothing : Obligations.ReadReturnsValueAndChangesNothing := by
  intro s a rx ha
  refine ⟨_, step_withNextInput rx (busPhase_none _), fun r hr => ?_, fun hnone => ?_⟩
  · rw [step_read s ha, State.readWord_of_addr hr]
    rfl
  · rw [step_read s ha, State.readWord_unmapped hnone]
    rfl

/-! ## A byte received in the cycle of a PKT_READ (20_memory R116) -/

/-- The ticks leave the packet validator and the parameters alone (10_state R31 phases 1 and 2). -/
theorem State.atBusPhase_pvu_params (s : State) :
    s.atBusPhase.pvu = s.pvu ∧ s.atBusPhase.params = s.params := by
  have drive := sduTick_frame { s with inputs := s.inputs.tail }
  obtain ⟨hp, ha⟩ := ssmTick_pvu_params (sduTick { s with inputs := s.inputs.tail }).2
    (sduTick { s with inputs := s.inputs.tail }).1
  exact ⟨hp.trans drive.pvu, ha.trans drive.params⟩

@[simp] theorem levelPhase_pvu (s : State) : (levelPhase s).pvu = s.pvu := by
  rcases levelPhase_cases s with ⟨_, e⟩ | ⟨_, e⟩ <;> rw [e] <;> rfl

@[simp] theorem afterBus_none_pvu (s : State) : (afterBus none s).pvu = s.pvu := levelPhase_pvu s

/-- With room in RXQ the received byte stands last in it (40_packet_validator R200). -/
theorem afterBus_some_pvu {s : State} (h : s.pvu.rxq.length < s.params.rxqDepth) (b : Byte) :
    (afterBus (some b) s).pvu = { s.pvu with rxq := s.pvu.rxq ++ [b] } := by
  rw [afterBus, levelPhase_pvu, rxPhase, if_pos h]

/-- PKT_READ takes a byte from every RXQ that is not empty (40_packet_validator R205). -/
theorem exec_pktRead_rxq_length {s t : State} (h : exec .pktRead s = .next t) :
    t.pvu.rxq.length ≤ s.pvu.rxq.length - 1 := by
  have htaken : s.takenCount = min 47 s.pvu.rxq.length := rfl
  rcases execPktRead_cases s with ⟨_, e⟩ | ⟨_, e⟩ <;> cases e.symm.trans h
  · simp only [State.complete_pvu, State.acceptPacket_rxq, List.length_drop]
    omega
  · have hsplit := resync_length (s.pvu.rxq.drop s.takenCount)
    simp only [List.length_drop] at hsplit
    simp only [State.complete_pvu, State.discardPacket_rxq]
    omega

/-- After a PKT_READ there is room for a byte, even if RXQ was full before it. -/
theorem dispatchCommand_pktRead_room {s t : State} (h : dispatchCommand 0x00000010 s = .next t)
    (hq : s.pvu.rxq.length ≤ s.params.rxqDepth) (hd : 1 ≤ s.params.rxqDepth) :
    t.pvu.rxq.length < t.params.rxqDepth := by
  have hdec : decode 0x00000010 = .ok .pktRead := by decide
  rw [dispatchCommand, hdec] at h
  have hparams : t.params = s.params := (exec_frame h).params
  have htakes := exec_pktRead_rxq_length h
  rw [State.setLastcmd_pvu] at htakes
  rw [hparams]
  omega

/-- Settles O30: the bus phase of both cycles is the same and leaves room in RXQ, so the RX phase of the cycle with a
byte appends it. -/
theorem byteOfTheSameCycleIsNotSeen : Obligations.ByteOfTheSameCycleIsNotSeen := by
  intro s b hq hd
  obtain ⟨hpvu, hparams⟩ := s.atBusPhase_pvu_params
  obtain ⟨t, ht⟩ := dispatchCommand_total 0x00000010 (s.atBusPhase.setReadData none)
  have hroom : t.pvu.rxq.length < t.params.rxqDepth := dispatchCommand_pktRead_room ht
    (by simpa [hpvu, hparams] using hq) (by simpa [hparams] using hd)
  have hbus := (busPhase_writeCmd 0x00000010 s.atBusPhase).trans ht
  refine ⟨_, _, step_withNextInput (some b) hbus, step_withNextInput none hbus, ?_, ?_⟩
  · rw [afterBus_some_pvu hroom, afterBus_none_pvu]
  · rw [(HostQuiet.afterBus (some b) t).result, (HostQuiet.afterBus none t).result]

end Sys2Proof.Machine

namespace Sys2Proof.Machine

/-! ## The round trip between commands and command words (30_encoding R151, R156, R157) -/

/-- A command carries no operand, so there is nothing in it to be ill formed (30_encoding R150). -/
theorem Instr.wellFormed_eq_true (i : Instr) : i.wellFormed = true := by cases i <;> rfl

theorem decode_encode (i : Instr) : decode (encode i) = .ok i := by cases i <;> rfl

/-- Settles O1: encoding then decoding answers the command, and no other word decodes to it. -/
theorem decodeAndEncodeAgree : Obligations.DecodeAndEncodeAgree := by
  intro i
  refine ⟨Instr.wellFormed_eq_true i, fun v => ⟨eq_encode_of_decode, ?_⟩⟩
  rintro rfl
  exact decode_encode i

/-- Settles O2: each word of the opcode map is its command's encoding. -/
theorem opcodeMapWordsDecode : Obligations.OpcodeMapWordsDecode :=
  ⟨decode_encode .nop, decode_encode .pktRead, decode_encode .pktCheck, decode_encode .setRes,
    decode_encode .setSpeed, decode_encode .setCorr, decode_encode .turn, decode_encode .setRings,
    decode_encode .setPrerot, decode_encode .setRto, decode_encode .sweepStart, decode_encode .ringDone,
    decode_encode .sweepCancel, decode_encode .ctuXform⟩

/-! ## Which commands check BUSY_NOW (30_encoding R154) -/

/-- In a command that checks BUSY_NOW the check stands first. -/
theorem exec_of_busy {i : Instr} {s : State} (hi : Instr.checksBusy i = true) (hb : s.busyNow = true) :
    exec i s = .next (s.reject .busy) := by
  cases i with
  | nop | pktRead | pktCheck | ringDone | sweepCancel | ctuXform => cases hi
  | setRes | setSpeed | setCorr | turn | setRings | setPrerot | setRto | sweepStart => exact if_pos hb

/-- A verdict reports a completion's code (30_encoding R155). -/
theorem PktVerdict.result_ne_busy (v : PktVerdict) : v.result ≠ .busy := by cases v <;> decide

/-- The outcomes of a command that does not check BUSY_NOW: a verdict, OK, or a rejection of its own. -/
theorem exec_result_ne_busy {i : Instr} (hi : Instr.checksBusy i = false) (s : State) :
    ∃ t, exec i s = .next t ∧ t.host.result ≠ .busy := by
  cases i with
  | setRes | setSpeed | setCorr | turn | setRings | setPrerot | setRto | sweepStart => cases hi
  | nop => exact ⟨_, execNop_eq s, by simp⟩
  | pktRead =>
    rcases execPktRead_cases s with ⟨_, h⟩ | ⟨_, h⟩
    · exact ⟨_, h, by simp⟩
    · exact ⟨_, h, PktVerdict.result_ne_busy _⟩
  | pktCheck => exact ⟨_, execPktCheck_eq s, PktVerdict.result_ne_busy _⟩
  | ringDone =>
    rcases execRingDone_cases s with ⟨_, h⟩ | ⟨_, h⟩ <;> exact ⟨_, h, by simp⟩
  | sweepCancel =>
    rcases execSweepCancel_cases s with ⟨_, h⟩ | ⟨_, h⟩ | ⟨_, h⟩ | ⟨_, h⟩ <;> exact ⟨_, h, by simp⟩
  | ctuXform =>
    rcases execCtuXform_cases s with ⟨_, h⟩ | ⟨_, h⟩ <;> exact ⟨_, h, by simp⟩

/-- Settles O18: the first list holds only commands that check BUSY_NOW, the second only commands that do not. -/
theorem busyRejectsMotionAndConfiguration : Obligations.BusyRejectsMotionAndConfiguration := by
  refine ⟨fun i s hi hmoves => ?_, fun i s hi => ?_⟩
  · have checks : Instr.checksBusy i = true := (show ∀ j ∈ _, Instr.checksBusy j = true by decide) i hi
    exact exec_of_busy checks (State.busyNow_eq_true.2 hmoves)
  · have ignores : Instr.checksBusy i = false := (show ∀ j ∈ _, Instr.checksBusy j = false by decide) i hi
    exact exec_result_ne_busy ignores s

end Sys2Proof.Machine

namespace Sys2Proof.Machine

/-! ## The CRC (40_packet_validator R202, R203) -/

theorem crc8_append (table bytes : List Byte) (b : Byte) :
    crc8 table (bytes ++ [b]) = table.getD (crc8 table bytes ^^^ b).toNat 0 := by
  rw [crc8, List.foldl_append]
  rfl

/-- Settles O21: the fold starts at 0 and its last step takes the last byte. -/
theorem crcTakesOneByteAtATime : Obligations.CrcTakesOneByteAtATime :=
  fun table bytes b => ⟨rfl, crc8_append table bytes b⟩

/-- When the table's entries are distinct, a change of one byte changes the CRC: each later step keeps distinct
intermediate values apart. -/
theorem crc8_set_ne {table bytes : List Byte} (ht : Function.Injective fun c : Byte => table.getD c.toNat 0)
    {k : Nat} (hk : k < bytes.length) {v : Byte} (hv : v ≠ bytes[k]) :
    crc8 table (bytes.set k v) ≠ crc8 table bytes := by
  have foldInjective (l : List Byte) :
      Function.Injective fun c => l.foldl (fun crc b => table.getD (crc ^^^ b).toNat 0) c := by
    induction l with
    | nil => exact Function.injective_id
    | cons b l ih => exact fun c d h => BitVec.xor_left_inj b |>.1 (ht (ih h))
  intro h
  rw [List.set_eq_take_append_cons_drop, if_pos hk] at h
  conv at h => rhs; rw [← List.take_append_drop k bytes, List.drop_eq_getElem_cons hk]
  rw [crc8, crc8, List.foldl_append, List.foldl_append] at h
  exact hv ((BitVec.xor_right_inj _).1 (ht (foldInjective _ h)))

/-! ### The default table -/

/-- The default table is the generated one (40_packet_validator R203). -/
theorem defaultCrcTable_eq : defaultCrcTable = (List.range 256).map crcEntry := by decide +kernel

theorem crcEntry_toNat (c : Byte) : crcEntry c.toNat = crcShift^[8] c := by
  rw [crcEntry, BitVec.ofNat_toNat, BitVec.setWidth_eq]
  rfl

theorem defaultCrcTable_getD (c : Byte) : defaultCrcTable.getD c.toNat 0 = crcShift^[8] c := by
  rw [defaultCrcTable_eq, ← crcEntry_toNat, List.getD_eq_getElem _ _ (by simpa using c.isLt)]
  simp

/-- The bit shifted out stays visible in bit 0, since the polynomial 0x4D is odd. -/
theorem crcShift_getLsbD_zero (c : Byte) : (crcShift c).getLsbD 0 = c.getLsbD 7 := by
  unfold crcShift
  split
  · next h => simp [h]
  · next h => simpa using h

/-- One step of the bitwise CRC loses nothing: bit 0 of the result tells whether the polynomial was added. -/
theorem crcShift_injective : Function.Injective crcShift := by
  intro a b h
  have htop : a.getLsbD 7 = b.getLsbD 7 := by rw [← crcShift_getLsbD_zero, h, crcShift_getLsbD_zero]
  have hshift : a <<< 1 = b <<< 1 := by
    rw [crcShift, crcShift, htop] at h
    split at h
    · exact (BitVec.xor_left_inj _).1 h
    · exact h
  apply BitVec.eq_of_getLsbD_eq
  intro i hi
  by_cases h7 : i = 7
  · rw [h7, htop]
  · have hbit := congrArg (BitVec.getLsbD · (i + 1)) hshift
    simpa [show i + 1 < 8 by omega, BitVec.getLsbD_eq_getElem hi] using hbit

theorem defaultCrcTable_injective : Function.Injective fun c : Byte => defaultCrcTable.getD c.toNat 0 := by
  simp only [defaultCrcTable_getD]
  exact crcShift_injective.iterate 8

/-! ## The verdict (40_packet_validator R204) -/

/-- Settles O22: each verdict belongs to one branch of Validate. -/
theorem validationChecksInOrder : Obligations.ValidationChecksInOrder := by
  intro table buf k
  have branches : validate table buf k = if k < 47 then .length else if Memory.read buf 0 ≠ 0x54 then .sentinel
      else if crc8 table ((List.range 46).map (Memory.read buf)) ≠ Memory.read buf 46 then .crc else .ok := rfl
  rw [branches]
  by_cases hk : k < 47
  · simp [hk]
  have hlen : 47 ≤ k := not_lt.1 hk
  by_cases hs : Memory.read buf 0 = 0x54#8
  · by_cases hc : crc8 table ((List.range 46).map (Memory.read buf)) = Memory.read buf 46
    · simp [hk, hlen, hs, hc]
    · simp [hk, hlen, hs, hc]
  · simp [hk, hlen, hs]

/-- Settles O26: the step over byte 46 meets an intermediate CRC equal to it, and the table starts with 0. -/
theorem defaultTableGivesZeroOverWholePackets : Obligations.DefaultTableGivesZeroOverWholePackets := by
  refine ⟨defaultCrcTable_eq, fun buf h => ?_⟩
  obtain ⟨-, -, -, hok⟩ := validationChecksInOrder defaultParams.crcTable buf 47
  obtain ⟨-, -, hcrc⟩ := hok.1 h
  rw [List.range_succ, List.map_append, List.map_singleton, crc8_append, hcrc, BitVec.xor_self]
  rfl

/-! ### A changed byte -/

@[simp] theorem Memory.bytes_length (m : Memory) (n : Nat) : (Memory.bytes m n).length = n := by simp [Memory.bytes]

@[simp] theorem Memory.bytes_getElem (m : Memory) {n i : Nat} (hi : i < (Memory.bytes m n).length) :
    (Memory.bytes m n)[i] = Memory.read m i := by simp [Memory.bytes]

theorem Memory.bytes_write {m : Memory} (h : Memory.wf m = true) (k n : Nat) (v : Byte) :
    Memory.bytes (Memory.write m k v) n = (Memory.bytes m n).set k v := by
  apply List.ext_getElem
  · simp
  · intro i _ _
    rw [Memory.bytes_getElem, List.getElem_set, Memory.bytes_getElem]
    split
    · next e =>
      rw [← e]
      exact Memory.read_write_same v h
    · exact Memory.read_write_other v (by omega)

theorem flipped_ne (b : Byte) {j : Nat} (hj : j < 8) : b ^^^ (1#8 <<< j) ≠ b := by
  intro h
  have hbit := congrArg (BitVec.getLsbD · j) h
  simp [hj] at hbit

/-- Settles O27: a flip of byte 0 breaks the sentinel; a flip of a byte the CRC covers changes the CRC and leaves the
sentinel and the checksum. -/
theorem singleBitFlipIsAlwaysDetected : Obligations.SingleBitFlipIsAlwaysDetected := by
  intro buf k j hwf hv hj
  obtain ⟨-, -, -, hok⟩ := validationChecksInOrder defaultParams.crcTable buf 47
  obtain ⟨-, hsent, hcrc⟩ := hok.1 hv
  have hflip := flipped_ne (Memory.read buf k) hj
  generalize Memory.read buf k ^^^ (1#8 <<< j) = v at hflip
  obtain ⟨-, sentinelIff, crcIff, -⟩ :=
    validationChecksInOrder defaultParams.crcTable (Memory.write buf k v) 47
  constructor
  · rintro rfl
    refine sentinelIff.2 ⟨le_rfl, ?_⟩
    rw [Memory.read_write_same v hwf, ← hsent]
    exact hflip
  · intro hlo hhi
    refine crcIff.2 ⟨le_rfl, ?_, ?_⟩
    · rw [Memory.read_write_other v (by omega), hsent]
    · rw [Memory.read_write_other v (by omega), ← hcrc, ← Memory.bytes, ← Memory.bytes, Memory.bytes_write hwf]
      exact crc8_set_ne defaultCrcTable_injective (by rw [Memory.bytes_length]; omega)
        (by rwa [Memory.bytes_getElem])

/-! ## Resynchronisation (40_packet_validator R206) -/

/-- Settles O24, by induction on the queue. -/
theorem resyncStopsAtFirstSentinel : Obligations.ResyncStopsAtFirstSentinel := by
  intro q
  induction q with
  | nil => simp [resync]
  | cons b q ih =>
    obtain ⟨hdrop, htake, hhead, hle⟩ := ih
    rw [resync]
    split
    · next hb => simp [hb, SENTINEL]
    · next hb =>
      refine ⟨hdrop, ?_, hhead, by simpa using hle⟩
      rw [List.take_succ_cons, List.forall_mem_cons]
      exact ⟨hb, htake⟩

/-- A queue that is empty or begins with the sentinel stays as it is. -/
theorem resync_of_sentinel {q : List Byte} (h : q = [] ∨ q.head? = some SENTINEL) : (resync q).1 = q := by
  cases q with
  | nil => rfl
  | cons b q => rw [resync, if_pos (by simpa using h)]

/-! ## PKT_CHECK and the RX phase (40_packet_validator R200, R207) -/

/-- Settles O25: the buffer always counts as 47 bytes, so the length check passes. -/
theorem pktCheckValidatesInPlace : Obligations.PktCheckValidatesInPlace := by
  intro s
  obtain ⟨lengthIff, -⟩ := validationChecksInOrder s.params.crcTable s.pvu.pktbuf 47
  exact ⟨decode_encode .pktCheck, _, rfl, fun h => lt_irrefl _ (lengthIff.1 h), execPktCheck_eq s⟩

/-- Settles O29: the three cases of the RX phase. -/
theorem receivedByteIsQueuedOrDropped : Obligations.ReceivedByteIsQueuedOrDropped :=
  fun _ _ => ⟨rfl, fun hroom => if_pos hroom, fun hfull => if_neg (not_lt.2 hfull)⟩

end Sys2Proof.Machine

namespace Sys2Proof.Machine

/-! ## The packet window (40_packet_validator R209, 10_state R54) -/

theorem wordBytes_length (k : Fin 12) (v : Word) : (wordBytes k v).length = min 4 (47 - 4 * k.val) := by
  rw [wordBytes, List.length_take, min_comm]
  rfl

theorem wordBytes_getElem (k : Fin 12) (v : Word) {j : Nat} (hj : j < (wordBytes k v).length) :
    (wordBytes k v)[j] = v.extractLsb' (8 * j) 8 := by
  have hlt : j < 4 := by have := wordBytes_length k v; omega
  simp only [wordBytes, List.getElem_take]
  match j, hlt with
  | 0, _ | 1, _ | 2, _ | 3, _ => rfl

theorem read_writePktbuf_same {s : State} (h : Memory.wf s.pvu.pktbuf = true) (k : Fin 12) (v : Word) {j : Nat}
    (hj : j < 4) (hk : 4 * k.val + j ≤ 46) :
    Memory.read (writePktbuf k v s).pvu.pktbuf (4 * k.val + j) = v.extractLsb' (8 * j) 8 := by
  have hlen := wordBytes_length k v
  have hfits : 4 * k.val + (wordBytes k v).length ≤ PKT_LEN := by rw [PKT_LEN]; omega
  exact (Memory.read_writeBytes_same h hfits (by omega)).trans (wordBytes_getElem k v _)

theorem read_writePktbuf_other (s : State) (k : Fin 12) (v : Word) {j : Nat}
    (hj : j < 4 * k.val ∨ 4 * k.val + 3 < j ∨ 46 < j) :
    Memory.read (writePktbuf k v s).pvu.pktbuf j = Memory.read s.pvu.pktbuf j :=
  Memory.read_writeBytes_other (by have := wordBytes_length k v; omega)

/-- A word is its four bytes, the lowest last. -/
theorem word_eq_bytes (v : Word) :
    v.extractLsb' 24 8 ++ v.extractLsb' 16 8 ++ v.extractLsb' 8 8 ++ v.extractLsb' 0 8 = v := by
  rw [BitVec.extractLsb'_append_extractLsb'_eq_extractLsb' (by decide),
    BitVec.extractLsb'_append_extractLsb'_eq_extractLsb' (by decide),
    BitVec.extractLsb'_append_extractLsb'_eq_extractLsb' (by decide)]
  exact BitVec.extractLsb'_eq_self

theorem bytes_and_mask (b3 b2 b1 b0 : Byte) :
    (b3 ++ b2 ++ b1 ++ b0) &&& 0x00FFFFFF#32 = 0#8 ++ b2 ++ b1 ++ b0 := by
  calc (b3 ++ b2 ++ b1 ++ b0) &&& 0x00FFFFFF#32
    _ = (b3 ++ b2 ++ b1 ++ b0) &&& (0#8 ++ BitVec.allOnes 8 ++ BitVec.allOnes 8 ++ BitVec.allOnes 8) := rfl
    _ = 0#8 ++ b2 ++ b1 ++ b0 := by simp only [BitVec.and_append, BitVec.and_allOnes, BitVec.and_zero]

/-- A word of the window just written reads back, byte 47 as 0 (10_state R54). -/
theorem pktbufWord_writePktbuf_same {s : State} (h : Memory.wf s.pvu.pktbuf = true) (k : Fin 12) (v : Word) :
    (writePktbuf k v s).pktbufWord k.val = if k.val = 11 then v &&& 0x00FFFFFF#32 else v := by
  have hk := k.isLt
  have b0 := read_writePktbuf_same h k v (j := 0) (by decide) (by omega)
  have b1 := read_writePktbuf_same h k v (j := 1) (by decide) (by omega)
  have b2 := read_writePktbuf_same h k v (j := 2) (by decide) (by omega)
  rw [Nat.add_zero] at b0
  rw [State.pktbufWord_eq (fun _ => State.pktByte_of_lt) k, b0, b1, b2]
  split
  · exact (bytes_and_mask _ _ _ _).symm.trans (congrArg (· &&& 0x00FFFFFF#32) (word_eq_bytes v))
  · rw [read_writePktbuf_same h k v (j := 3) (by decide) (by omega)]
    exact word_eq_bytes v

theorem pktbufWord_writePktbuf_other (s : State) {k k' : Fin 12} (hk : k' ≠ k) (v : Word) :
    (writePktbuf k v s).pktbufWord k'.val = s.pktbufWord k'.val := by
  have hval : k'.val ≠ k.val := Fin.val_ne_of_ne hk
  have hbyte (j : Nat) (hj : j < 4) :
      (writePktbuf k v s).pktByte (4 * k'.val + j) = s.pktByte (4 * k'.val + j) := by
    rw [State.pktByte, State.pktByte, read_writePktbuf_other s k v (by omega)]
  rw [State.pktbufWord, State.pktbufWord, hbyte 3 (by decide), hbyte 2 (by decide), hbyte 1 (by decide)]
  exact congrArg _ (hbyte 0 (by decide))

/-- Settles O14: the write reaches `writePktbuf`, whose bytes and words the lemmas above give. -/
theorem pktbufWriteStoresItsBytes : Obligations.PktbufWriteStoresItsBytes := by
  intro s k a v hwf ha
  have hreg : Reg.addr (.pktbufW k) = a.toNat := ha.symm
  have hbus : busPhase (some (.write a 4 v)) s = .next (writePktbuf k v (s.setReadData none)) := by
    rw [busPhase_write (by omega) (by simp only [Reg.addr]; omega), State.writeWord, regAt_eq_some.2 hreg]
    rfl
  exact ⟨_, hbus, fun _ => read_writePktbuf_same hwf k v, fun _ => read_writePktbuf_other _ k v, rfl,
    pktbufWord_writePktbuf_same hwf k v, fun _ hk => pktbufWord_writePktbuf_other _ hk v⟩

end Sys2Proof.Machine

namespace Sys2Proof.Machine

/-! ## PKT_READ (40_packet_validator R205) -/

/-- The buffer after PKT_READ holds the bytes taken and then zeros. -/
theorem State.read_readBuffer {s : State} (h : Memory.wf s.pvu.pktbuf = true) {j : Nat} (hj : j < 47) :
    Memory.read s.readBuffer j = if j < min 47 s.pvu.rxq.length then s.pvu.rxq.getD j 0 else 0x00 := by
  have hlen : j < (padPacket (s.pvu.rxq.take s.takenCount)).length := by rwa [padPacket_length]
  have hread := Memory.read_writeBytes_same (k := 0) h (by simp) hlen
  rw [Nat.zero_add] at hread
  rw [State.readBuffer, hread]
  simp only [padPacket, List.getElem_map, List.getElem_range, State.takenCount, PKT_LEN]
  split
  · next hlt => simp [List.getD_eq_getElem?_getD, lt_min_iff.1 hlt]
  · next hge => exact List.getD_eq_default _ _ (by simp; omega)

theorem State.read_readBuffer_above (s : State) {j : Nat} (hj : 47 ≤ j) :
    Memory.read s.readBuffer j = Memory.read s.pvu.pktbuf j := by
  rw [State.readBuffer]
  exact Memory.read_writeBytes_other (.inr (by rwa [padPacket_length, Nat.zero_add]))

theorem State.drop_takenCount (s : State) : s.pvu.rxq.drop s.takenCount = s.pvu.rxq.drop 47 := by
  rcases le_total 47 s.pvu.rxq.length with h | h
  · rw [State.takenCount, PKT_LEN, min_eq_left h]
  · rw [State.takenCount, PKT_LEN, min_eq_right h, List.drop_length, List.drop_eq_nil_of_le h]

/-- What accepting and discarding have in common: the buffer, the verdict and the frame. -/
theorem exec_pktRead_next {s t : State} (h : exec .pktRead s = .next t) :
    t.pvu.pktbuf = s.readBuffer ∧ t.pvu.pktLast = s.readVerdict ∧ t.host.result = t.pvu.pktLast.result ∧
      t = { s with pvu := t.pvu, host := { s.host with result := t.host.result } } := by
  rcases execPktRead_cases s with ⟨hok, e⟩ | ⟨_, e⟩ <;> cases e.symm.trans h
  · exact ⟨s.acceptPacket_pktbuf, s.acceptPacket_pktLast.trans hok.symm, rfl, rfl⟩
  · exact ⟨s.discardPacket_pktbuf _, s.discardPacket_pktLast _, rfl, rfl⟩

theorem exec_pktRead_pvu {s t : State} (h : exec .pktRead s = .next t) :
    (s.readVerdict = .ok → t.pvu = s.acceptPacket) ∧
      (s.readVerdict ≠ .ok → t.pvu = s.discardPacket s.readVerdict) := by
  rcases execPktRead_cases s with ⟨hok, e⟩ | ⟨hne, e⟩ <;> cases e.symm.trans h
  · exact ⟨fun _ => rfl, fun hne => absurd hok hne⟩
  · exact ⟨fun hok => absurd hok hne, fun _ => rfl⟩

/-- Settles O23: the bytes of the buffer, the verdict on them, and what accepting and discarding do to the unit. -/
theorem pktReadTakesAndValidatesOnePacket : Obligations.PktReadTakesAndValidatesOnePacket := by
  intro s hwf
  obtain ⟨t, ht⟩ := exec_total .pktRead s
  obtain ⟨hbuf, hlast, hresult, hframe⟩ := exec_pktRead_next ht
  obtain ⟨accepted, discarded⟩ := exec_pktRead_pvu ht
  refine ⟨t, ht, decode_encode .pktRead, fun j hj => ?_, fun j hj => ?_, ?_, ?_, fun hok => ?_, fun hne => ?_,
    hframe⟩
  · rw [hbuf, State.read_readBuffer hwf hj]
  · rw [hbuf, s.read_readBuffer_above hj]
  · rw [hlast, hbuf, State.readVerdict, State.takenCount, PKT_LEN]
  · rw [hresult]
    cases t.pvu.pktLast <;> rfl
  · rw [accepted (hlast.symm.trans hok), ← s.drop_takenCount]
    exact ⟨rfl, rfl, rfl, rfl, rfl⟩
  · rw [discarded (hlast ▸ hne), ← s.drop_takenCount]
    exact ⟨rfl, rfl, rfl, rfl, rfl⟩

/-! ## A stream of packets (40_packet_validator R212) -/

theorem exec_pktRead_wf {s t : State} (hwf : Memory.wf s.pvu.pktbuf = true) (h : exec .pktRead s = .next t) :
    Memory.wf t.pvu.pktbuf = true := by
  obtain ⟨hbuf, -⟩ := exec_pktRead_next h
  rw [hbuf, State.readBuffer]
  exact writePacket_wf _ hwf

/-- A buffer that holds the 47 bytes of a string validates exactly if the string is a good packet. -/
theorem validate_ok_iff_goodPacket {table p : List Byte} {buf : Memory} (hp : p.length = 47)
    (hbuf : ∀ j, j < 47 → Memory.read buf j = p.getD j 0) :
    validate table buf 47 = .ok ↔ goodPacket table p := by
  have hcover : (List.range 46).map (Memory.read buf) = p.take CRC_POS := by
    apply List.ext_getElem
    · simp [hp, CRC_POS]
    · intro j hj _
      simp only [List.length_map, List.length_range] at hj
      simp [hbuf j (by omega), show j < p.length by omega]
  have hhead : p.head? = some (p.getD 0 0) := by
    rw [List.head?_eq_getElem?, List.getD_eq_getElem?_getD]
    simp [hp]
  have hlast : p.getLast? = some (p.getD 46 0) := by
    rw [List.getLast?_eq_getElem?, List.getD_eq_getElem?_getD]
    simp [hp]
  obtain ⟨-, -, -, hok⟩ := validationChecksInOrder table buf 47
  rw [hok, hcover, hbuf 0 (by decide), hbuf 46 (by decide), goodPacket, hhead, hlast, Option.some_inj, Option.some_inj]
  exact and_congr (iff_of_true le_rfl hp) (and_congr Iff.rfl eq_comm)

/-- What a PKT_READ does when a whole block stands first in RXQ. -/
structure BlockRead (block rest : List Byte) (s t : State) : Prop where
  params : t.params = s.params
  bufWf : Memory.wf t.pvu.pktbuf = true
  good : goodPacket s.params.crcTable block → t.host.result = .ok ∧ t.pvu.rxq = rest
  bad : ¬goodPacket s.params.crcTable block →
    (t.host.result = .pktSentinel ∨ t.host.result = .pktCrc) ∧ t.pvu.rxq = (resync rest).1

theorem exec_pktRead_block {s : State} {block rest : List Byte} (hwf : Memory.wf s.pvu.pktbuf = true)
    (hlen : block.length = 47) (hq : s.pvu.rxq = block ++ rest) :
    ∃ t, exec .pktRead s = .next t ∧ BlockRead block rest s t := by
  obtain ⟨t, ht, -, hread, -, hlast, hresult, hok, hbad, -⟩ := pktReadTakesAndValidatesOnePacket s hwf
  have htaken : min 47 s.pvu.rxq.length = 47 := by simp [hq, hlen]
  have hdrop : s.pvu.rxq.drop 47 = rest := by rw [hq, ← hlen, List.drop_left]
  rw [htaken] at hlast
  rw [hdrop] at hok hbad
  have hbuf (j : Nat) (hj : j < 47) : Memory.read t.pvu.pktbuf j = block.getD j 0 := by
    rw [hread j hj, htaken, if_pos hj, hq, List.getD_append _ _ _ _ (by omega)]
  have hgood := validate_ok_iff_goodPacket (table := s.params.crcTable) hlen hbuf
  rw [← hlast] at hgood
  obtain ⟨hlength, -⟩ := validationChecksInOrder s.params.crcTable t.pvu.pktbuf 47
  rw [← hlast] at hlength
  refine ⟨t, ht, (exec_frame ht).params, exec_pktRead_wf hwf ht, fun h => ?_, fun h => ?_⟩
  · have hv := hgood.2 h
    obtain ⟨-, -, -, -, hrxq⟩ := hok hv
    rw [hv] at hresult
    exact ⟨hresult, hrxq⟩
  · obtain ⟨-, -, -, -, hrxq⟩ := hbad (mt hgood.1 h)
    refine ⟨?_, hrxq⟩
    cases hv : t.pvu.pktLast with
    | ok => exact absurd (hgood.1 hv) h
    | length => exact absurd (hlength.1 hv) (by decide)
    | sentinel => exact .inl (by rw [hresult, hv])
    | crc => exact .inr (by rw [hresult, hv])

theorem pktReads_succ {s t : State} (h : exec .pktRead s = .next t) (n : Nat) :
    pktReads (n + 1) s = (t.host.result :: (pktReads n t).1, (pktReads n t).2) := by
  rw [pktReads, h]

/-- Valid packets that stand one after the other in RXQ are read one after the other. -/
theorem pktReads_goodPackets {packets : List (List Byte)} {s : State} (hwf : Memory.wf s.pvu.pktbuf = true)
    (hgood : ∀ p ∈ packets, goodPacket s.params.crcTable p) (hq : s.pvu.rxq = packets.flatten) :
    (pktReads packets.length s).1 = List.replicate packets.length .ok ∧
      (pktReads packets.length s).2.pvu.rxq = [] := by
  induction packets generalizing s with
  | nil => exact ⟨rfl, hq⟩
  | cons p packets ih =>
    obtain ⟨hp, hrest⟩ := List.forall_mem_cons.1 hgood
    obtain ⟨t, ht, block⟩ := exec_pktRead_block hwf hp.1 hq
    obtain ⟨hresult, hrxq⟩ := block.good hp
    obtain ⟨hresults, hempty⟩ := ih block.bufWf (by rwa [block.params]) hrxq
    rw [List.length_cons, pktReads_succ ht]
    exact ⟨by rw [hresult, hresults, List.replicate_succ], hempty⟩

/-- Resync() discards nothing of a queue of valid packets. -/
theorem resync_goodPackets {table : List Byte} {packets : List (List Byte)}
    (h : ∀ p ∈ packets, goodPacket table p) : (resync packets.flatten).1 = packets.flatten := by
  cases packets with
  | nil => rfl
  | cons p packets =>
    obtain ⟨⟨-, hhead, -⟩, -⟩ := List.forall_mem_cons.1 h
    refine resync_of_sentinel (.inr ?_)
    rw [List.flatten_cons, List.head?_append, hhead]
    rfl

/-- Settles O28: the failing read leaves the packets' bytes whole in RXQ. -/
theorem resyncRecoversAllLaterPackets : Obligations.ResyncRecoversAllLaterPackets := by
  intro s bad packets hwf hlen hbad hgood hq
  obtain ⟨t, ht, block⟩ := exec_pktRead_block hwf hlen hq
  obtain ⟨hcode, hrxq⟩ := block.bad hbad
  rw [resync_goodPackets hgood] at hrxq
  obtain ⟨hresults, hempty⟩ := pktReads_goodPackets block.bufWf (by rwa [block.params]) hrxq
  refine ⟨t.host.result, hcode, ?_⟩
  rw [pktReads_succ ht]
  exact ⟨congrArg _ hresults, hempty⟩

end Sys2Proof.Machine

namespace Sys2Proof.Machine

/-! ## The value of a binary64 pattern against a threshold (00_scope R10) -/

theorem f64Unit_pos : (0 : ℚ) < f64Unit := by
  rw [f64Unit_cast]
  positivity

/-- A pattern's value is positive exactly when its integer in units of 2^-1074 is. -/
theorem F64.toRat_pos_iff (b : F64) : 0 < F64.toRat b ↔ 0 < F64.scaled b := by
  rw [F64.toRat, div_pos_iff_of_pos_right f64Unit_pos, Int.cast_pos]

/-- Settles O40: the model compares the two sides in units of 2^-1074. -/
theorem angleReachedIsExact : Obligations.AngleReachedIsExact := by
  intro s _
  rw [State.angleReached, decide_eq_true_iff, F64.toRat, ← mul_div_assoc, le_div_iff₀ f64Unit_pos]
  exact_mod_cast Iff.rfl

/-! ## The presets (41_stepper_drive R260) -/

theorem Preset.ofCode_eq_none {n : Nat} (h : 4 < n) : Preset.ofCode n = none := by
  match n, h with
  | n + 5, _ => rfl

/-- The codes 0 to 4 each select the preset that has this code. -/
theorem Preset.exists_ofCode {n : Nat} (h : n ≤ 4) : ∃ p, (Preset.code p).toNat = n ∧ Preset.ofCode n = some p := by
  interval_cases n
  · exact ⟨.full, rfl, rfl⟩
  · exact ⟨.half, rfl, rfl⟩
  · exact ⟨.quarter, rfl, rfl⟩
  · exact ⟨.eighth, rfl, rfl⟩
  · exact ⟨.sixteenth, rfl, rfl⟩

/-- Settles O31: preset by preset, RES by the layout of its fields. -/
theorem presetsHaveTheirCodesAndSelectors : Obligations.PresetsHaveTheirCodesAndSelectors := by
  refine ⟨fun p => by cases p <;> decide, fun s ht => ?_⟩
  rw [State.regValue, State.resWord_eq, ht]
  cases s.sdu.mscode <;> rfl

/-! ## The drive's commands (41_stepper_drive R262 to R267) -/

/-- Settles O32: the three outcomes of `execSetRes_cases`, told apart by BUSY_NOW and the code. -/
theorem setResSelectsPreset : Obligations.SetResSelectsPreset := by
  intro s
  refine ⟨decode_encode .setRes, exec_of_busy rfl, fun hb hhi => ?_, fun hb hle => ?_⟩
  · rcases execSetRes_cases s with ⟨hb', _⟩ | ⟨_, _, h⟩ | ⟨p, _, hp, _⟩
    · exact absurd (hb'.symm.trans hb) (by decide)
    · exact h
    · exact absurd (hp.symm.trans (Preset.ofCode_eq_none hhi)) (by simp)
  · obtain ⟨p, hcode, hp⟩ := Preset.exists_ofCode hle
    rcases execSetRes_cases s with ⟨hb', _⟩ | ⟨_, hnone, _⟩ | ⟨p', _, hp', h⟩
    · exact absurd (hb'.symm.trans hb) (by decide)
    · exact absurd (hnone.symm.trans hp) (by simp)
    · cases hp'.symm.trans hp
      exact ⟨p, hcode, h⟩

/-- Settles O33: the three outcomes of `execSetSpeed_cases`, told apart by BUSY_NOW and the range. -/
theorem setSpeedStoresLegalSpeed : Obligations.SetSpeedStoresLegalSpeed := by
  intro s
  refine ⟨decode_encode .setSpeed, exec_of_busy rfl, fun hb hr => ?_, fun hb hlo hhi => ?_⟩ <;>
    rcases execSetSpeed_cases s with ⟨hb', _⟩ | ⟨_, hbad, h⟩ | ⟨_, hlo', hhi', h⟩
  · exact absurd (hb'.symm.trans hb) (by decide)
  · exact h
  · omega
  · exact absurd (hb'.symm.trans hb) (by decide)
  · omega
  · exact h

/-- Settles O34: the three outcomes of `execSetCorr_cases`; the model tests the sign on the scaled integer. -/
theorem setCorrStoresPositiveFactor : Obligations.SetCorrStoresPositiveFactor := by
  rintro s _ rfl
  rw [F64.toRat_pos_iff]
  refine ⟨decode_encode .setCorr, exec_of_busy rfl, fun hb hbad => ?_, fun hb hf hp => ?_⟩ <;>
    rcases execSetCorr_cases s with ⟨hb', _⟩ | ⟨_, hbad', h⟩ | ⟨_, hgood, h⟩
  · exact absurd (hb'.symm.trans hb) (by decide)
  · exact h
  · exact absurd hgood hbad
  · exact absurd (hb'.symm.trans hb) (by decide)
  · exact absurd ⟨hf, hp⟩ hbad'
  · exact h

/-- An idle block starts the host's turn of a positive number of steps (41_stepper_drive R267). -/
theorem exec_turn_started {s : State} (hb : s.busyNow = false) (hn : 1 ≤ s.host.arg0.toNat) :
    exec .turn s = .next (State.complete .ok (s.startTurn s.arg1Dir s.arg0Steps .host)) := by
  rcases execTurn_cases s with ⟨hb', _⟩ | ⟨_, h0, _⟩ | ⟨_, _, h⟩
  · exact absurd (hb'.symm.trans hb) (by decide)
  · omega
  · exact h

/-- Settles O35: the three outcomes of `execTurn_cases`, told apart by BUSY_NOW and ARG0. -/
theorem turnStartsPulseTrain : Obligations.TurnStartsPulseTrain := by
  intro s
  refine ⟨decode_encode .turn, exec_of_busy rfl, fun hb h0 => ?_, exec_turn_started⟩
  rcases execTurn_cases s with ⟨hb', _⟩ | ⟨_, _, h⟩ | ⟨_, hn, _⟩
  · exact absurd (hb'.symm.trans hb) (by decide)
  · exact h
  · exact absurd h0 hn

/-! ## HalfPeriod (41_stepper_drive R265) -/

/-- `ceil_div` rounds up, and by less than a whole divisor (00_scope R12). -/
theorem ceilDiv_bounds (a : Nat) {b : Nat} (hb : 0 < b) : a ≤ ceilDiv a b * b ∧ ceilDiv a b * b < a + b := by
  have hsum := Nat.div_add_mod (a + (b - 1)) b
  have hlt := Nat.mod_lt (a + (b - 1)) hb
  rw [ceilDiv, Nat.mul_comm]
  omega

/-- HalfPeriod is saturated, the exact quotient rounded up, or raised to 1 from a quotient of 0. -/
theorem halfPeriod_cases (fclk md speed : Nat) :
    (halfPeriod fclk md speed = 2 ^ 32 - 1 ∧ 2 ^ 32 - 1 ≤ ceilDiv (fclk * 1000) (400 * md * speed)) ∨
    (halfPeriod fclk md speed = ceilDiv (fclk * 1000) (400 * md * speed) ∧ 1 ≤ halfPeriod fclk md speed ∧
      halfPeriod fclk md speed ≤ 2 ^ 32 - 1) ∨
    (halfPeriod fclk md speed = 1 ∧ ceilDiv (fclk * 1000) (400 * md * speed) = 0) := by
  rw [halfPeriod, show 2 * SPR = 400 from rfl]
  omega

/-- Settles O36: each outcome of `halfPeriod_cases` against the bounds of `ceil_div`. -/
theorem halfPeriodIsNeverTooShort : Obligations.HalfPeriodIsNeverTooShort := by
  intro fclk md speed hmd hspeed
  have hb : 0 < 400 * md * speed := by positivity
  obtain ⟨hle, hlt⟩ := ceilDiv_bounds (fclk * 1000) hb
  have hpred {h : Nat} (hh : 1 ≤ h) (hc : h ≤ ceilDiv (fclk * 1000) (400 * md * speed)) :
      (h - 1) * (400 * md * speed) < fclk * 1000 := by
    have hmul := Nat.mul_le_mul_right (400 * md * speed) hc
    rw [Nat.sub_one_mul]
    have := Nat.le_mul_of_pos_left (400 * md * speed) hh
    omega
  rcases halfPeriod_cases fclk md speed with ⟨e, hsat⟩ | ⟨e, h1, hmax⟩ | ⟨e, hzero⟩
  · rw [e]
    exact ⟨by norm_num, le_rfl, .inl rfl, .inr (hpred (by norm_num) hsat)⟩
  · exact ⟨h1, hmax, .inr (e ▸ hle), .inr (hpred h1 e.le)⟩
  · rw [hzero, Nat.zero_mul] at hle
    rw [e]
    exact ⟨le_rfl, by norm_num, .inr (by omega), .inl rfl⟩

end Sys2Proof.Machine

namespace Sys2Proof.Machine

/-! ## The SDU tick (41_stepper_drive R268, R269) -/

section Tick

variable {s : State}

theorem sduTick_of_setup (hs : s.sdu.state = .setup) : sduTick s = (s.startHold .high, false) := by
  rw [sduTick, hs]

/-- Within a hold the tick only counts. -/
theorem sduTick_of_hold (hs : s.sdu.state = .high ∨ s.sdu.state = .low) (hc : s.sdu.phCnt ≠ 1) :
    sduTick s = (s.countHold, false) := by
  rcases hs with hs | hs <;> rw [sduTick, hs] <;> exact if_neg (sub_ne_zero.2 hc)

/-- STEP falls after the last tick of HIGH. -/
theorem sduTick_of_fall (hs : s.sdu.state = .high) (hc : s.sdu.phCnt = 1) :
    sduTick s = (s.startHold .low, false) := by
  rw [sduTick, hs]
  exact if_pos (sub_eq_zero.2 hc)

/-- STEP rises again after the last tick of LOW, unless the pulse was the last one. -/
theorem sduTick_of_nextPulse (hs : s.sdu.state = .low) (hc : s.sdu.phCnt = 1) (hr : s.sdu.rem ≠ 1) :
    sduTick s = (s.countPulse.startHold .high, false) := by
  rw [sduTick, hs]
  exact (if_pos (sub_eq_zero.2 hc)).trans (if_neg (sub_ne_zero.2 hr))

theorem sduTick_of_lastPulse (hs : s.sdu.state = .low) (hc : s.sdu.phCnt = 1) (hr : s.sdu.rem = 1) :
    sduTick s = (turnComplete s.countPulse, true) := by
  rw [sduTick, hs]
  exact (if_pos (sub_eq_zero.2 hc)).trans (if_pos (sub_eq_zero.2 hr))

/-- The end of a turn, written out (41_stepper_drive R269). -/
theorem turnComplete_countPulse (hc : s.sdu.phCnt = 1) (hr : s.sdu.rem = 1) :
    turnComplete s.countPulse = { s with
      sdu := { s.sdu with
        state := .idle, phCnt := 0, stepCnt := s.sdu.stepCnt + 1, rem := 0
        pos := advancePos s.sdu.turnDir s.sdu.mscode s.sdu.turnN s.sdu.pos }
      host := { s.host with
        irqPend :=
          match s.sdu.turnOrigin with
          | .host => s.host.irqPend ||| 0b0000001
          | .seq => s.host.irqPend } } := by
  have hc0 : s.sdu.phCnt - 1 = 0 := sub_eq_zero.2 hc
  have hr0 : s.sdu.rem - 1 = 0 := sub_eq_zero.2 hr
  rcases turnComplete_cases s.countPulse with ⟨ho, e⟩ | ⟨ho, e⟩ <;>
    rw [State.countPulse_sdu_turnOrigin] at ho <;>
    rw [e, State.finishTurn, State.countPulse, hc0, hr0, ho]
  rfl

end Tick

/-- Settles O37: state by state. -/
theorem sduTickFollowsTheStateMachine : Obligations.SduTickFollowsTheStateMachine := by
  intro s
  refine ⟨fun hs => ?_, sduTick_of_setup, sduTick_of_fall, sduTick_of_hold, sduTick_of_nextPulse, fun hs hc hr => ?_⟩
  · rw [sduTick, hs]
  · rw [sduTick_of_lastPulse hs hc hr, turnComplete_countPulse hc hr]
    cases s.sdu.turnDir <;> rfl

/-- The drive's settings and the half-period of the turn, which DriveFrame leaves out. -/
theorem sduTick_settings (s : State) : (sduTick s).1.sdu.speed = s.sdu.speed ∧ (sduTick s).1.sdu.corr = s.sdu.corr ∧
    (sduTick s).1.sdu.half = s.sdu.half := by
  rcases sduTick_cases s with ⟨_, e⟩ | ⟨_, e⟩ | ⟨_, _, e⟩ | ⟨_, _, e⟩ | ⟨_, _, _, e⟩ | ⟨_, _, _, e⟩ <;> rw [e]
  case inr.inr.inr.inr.inr => -- the last pulse: TURN_COMPLETE
    rcases turnComplete_cases s.countPulse with ⟨_, e'⟩ | ⟨_, e'⟩ <;> rw [e'] <;> exact ⟨rfl, rfl, rfl⟩
  all_goals exact ⟨rfl, rfl, rfl⟩

/-- The last tick of a turn is the only one that moves POS. -/
theorem sduTick_pos (s : State) : (sduTick s).1.sdu.pos = s.sdu.pos ∨
    (s.sdu.state = .low ∧ s.sdu.phCnt = 1 ∧ s.sdu.rem = 1) := by
  rcases sduTick_cases s with ⟨_, e⟩ | ⟨_, e⟩ | ⟨_, _, e⟩ | ⟨_, _, e⟩ | ⟨_, _, _, e⟩ | ⟨hs, hc, hr, _⟩
  case inr.inr.inr.inr.inr => exact .inr ⟨hs, sub_eq_zero.1 hc, sub_eq_zero.1 hr⟩
  all_goals rw [e]; exact .inl rfl

/-! ## Runs of ticks -/

theorem sduTicks_succ (k : Nat) (s : State) : sduTicks (k + 1) s = (sduTick (sduTicks k s)).1 := by
  induction k generalizing s with
  | zero => rfl
  | succ k ih => exact ih (sduTick s).1

/-- What each tick keeps, a run of ticks keeps. -/
theorem sduTicks_keeps {α : Type} (f : State → α) (h : ∀ s, f (sduTick s).1 = f s) (k : Nat) (s : State) :
    f (sduTicks k s) = f s := by
  induction k generalizing s with
  | zero => rfl
  | succ k ih => exact (ih _).trans (h s)

/-! ## The timing of a turn (41_stepper_drive R273)

A turn of n pulses with half-period H is 2·n holds of H ticks each, HIGH in the even and LOW in the odd ones. -/

/-- From the SETUP state `s`, the state `t` is `i` ticks into hold number `p` of the turn. -/
structure InHold (s : State) (p i : Nat) (t : State) : Prop where
  state : t.sdu.state = if p % 2 = 0 then .high else .low
  phCnt : t.sdu.phCnt.toNat + i = s.sdu.half.toNat
  stepCnt : t.sdu.stepCnt.toNat = p / 2
  rem : t.sdu.rem.toNat + p / 2 = s.sdu.rem.toNat
  half : t.sdu.half = s.sdu.half
  pos : t.sdu.pos = s.sdu.pos

theorem InHold.high_or_low {s t : State} {p i : Nat} (h : InHold s p i t) :
    t.sdu.state = .high ∨ t.sdu.state = .low := by
  rw [h.state]
  split <;> simp

/-- The tick after SETUP begins the first hold. -/
theorem inHold_start {s : State} (hs : s.sdu.state = .setup) (hc : s.sdu.stepCnt = 0) :
    InHold s 0 0 (sduTick s).1 := by
  rw [sduTick_of_setup hs]
  constructor <;> simp [hc]

/-- Inside a hold the tick counts it. -/
theorem InHold.tick_inside {s t : State} {p i : Nat} (h : InHold s p i t) (hi : i + 1 < s.sdu.half.toNat) :
    (sduTick t).2 = false ∧ InHold s p (i + 1) (sduTick t).1 := by
  have hph := h.phCnt
  have hne : t.sdu.phCnt ≠ 1 := by bv_omega
  rw [sduTick_of_hold h.high_or_low hne]
  refine ⟨rfl, h.state, ?_, h.stepCnt, h.rem, h.half, h.pos⟩
  rw [State.countHold_sdu_phCnt]
  bv_omega

/-- The last tick of a hold has PH_CNT at 1. -/
theorem InHold.phCnt_last {s t : State} {p i : Nat} (h : InHold s p i t) (hi : i + 1 = s.sdu.half.toNat) :
    t.sdu.phCnt = 1 := by
  have hph := h.phCnt
  bv_omega

/-- At the end of a hold before the last one the tick begins the next hold. -/
theorem InHold.tick_boundary {s t : State} {p i : Nat} (h : InHold s p i t) (hi : i + 1 = s.sdu.half.toNat)
    (hp : p + 1 < 2 * s.sdu.rem.toNat) : (sduTick t).2 = false ∧ InHold s (p + 1) 0 (sduTick t).1 := by
  have hstate := h.state
  have hrem := h.rem
  have hcnt := h.stepCnt
  rcases Nat.mod_two_eq_zero_or_one p with hpar | hpar
  · rw [if_pos hpar] at hstate
    rw [sduTick_of_fall hstate (h.phCnt_last hi)]
    refine ⟨rfl, ?_, ?_, ?_, ?_, h.half, h.pos⟩
    · rw [if_neg (by omega)]; rfl
    · simp [h.half]
    · simp only [State.startHold_sdu_stepCnt]; omega
    · simp only [State.startHold_sdu_rem]; omega
  · rw [if_neg (by omega)] at hstate
    have hne : t.sdu.rem ≠ 1 := by bv_omega
    rw [sduTick_of_nextPulse hstate (h.phCnt_last hi) hne]
    refine ⟨rfl, ?_, ?_, ?_, ?_, h.half, h.pos⟩
    · rw [if_pos (by omega)]; rfl
    · simp [h.half]
    · simp only [State.startHold_sdu_stepCnt, State.countPulse_sdu_stepCnt]; bv_omega
    · simp only [State.startHold_sdu_rem, State.countPulse_sdu_rem]; bv_omega

/-- At the end of the last hold the tick completes the turn. -/
theorem InHold.tick_last {s t : State} {p i : Nat} (h : InHold s p i t) (hi : i + 1 = s.sdu.half.toNat)
    (hp : p + 1 = 2 * s.sdu.rem.toNat) : (sduTick t).2 = true ∧ (sduTick t).1.sdu.state = .idle ∧
      (sduTick t).1.sdu.stepCnt = s.sdu.rem ∧
      (sduTick t).1.sdu.pos = advancePos t.sdu.turnDir t.sdu.mscode t.sdu.turnN s.sdu.pos := by
  have hstate := h.state
  have hrem := h.rem
  have hcnt := h.stepCnt
  have hone : t.sdu.rem = 1 := by bv_omega
  have hc := h.phCnt_last hi
  rw [if_neg (by omega)] at hstate
  rw [sduTick_of_lastPulse hstate hc hone, turnComplete_countPulse hc hone]
  refine ⟨rfl, rfl, ?_, by rw [← h.pos]⟩
  show t.sdu.stepCnt + 1 = s.sdu.rem
  bv_omega

/-- A tick on, the count of ticks is one further into the same hold, or at the start of the next. -/
theorem div_mod_succ (m : Nat) {H : Nat} (hH : 0 < H) :
    (m % H + 1 < H ∧ (m + 1) / H = m / H ∧ (m + 1) % H = m % H + 1) ∨
    (m % H + 1 = H ∧ (m + 1) / H = m / H + 1 ∧ (m + 1) % H = 0) := by
  have hm := Nat.div_add_mod m H
  rcases Nat.lt_or_eq_of_le (Nat.mod_lt m hH) with h | h
  · exact .inl ⟨h, (Nat.div_mod_unique hH).2 ⟨by omega, h⟩⟩
  · refine .inr ⟨h, (Nat.div_mod_unique hH).2 ⟨?_, hH⟩⟩
    rw [Nat.mul_add]
    omega

/-- Tick 1 + m of a turn of n pulses, m < 2·n·H, is tick m mod H of hold m / H. -/
theorem sduTicks_inHold {s : State} (hs : s.sdu.state = .setup) (hc : s.sdu.stepCnt = 0)
    (hH : 1 ≤ s.sdu.half.toNat) (m : Nat) (hm : m < 2 * s.sdu.rem.toNat * s.sdu.half.toNat) :
    InHold s (m / s.sdu.half.toNat) (m % s.sdu.half.toNat) (sduTicks (m + 1) s) ∧
      (sduTick (sduTicks m s)).2 = false := by
  induction m with
  | zero =>
    rw [Nat.zero_div, Nat.zero_mod]
    exact ⟨inHold_start hs hc, by rw [sduTicks, sduTick_of_setup hs]⟩
  | succ m ih =>
    obtain ⟨h, _⟩ := ih (by omega)
    rw [sduTicks_succ (m + 1)]
    rcases div_mod_succ m hH with ⟨hi, hdiv, hmod⟩ | ⟨hi, hdiv, hmod⟩
    · obtain ⟨hdone, hnext⟩ := h.tick_inside hi
      rw [hdiv, hmod]
      exact ⟨hnext, hdone⟩
    · have hp : m / s.sdu.half.toNat + 1 < 2 * s.sdu.rem.toNat := by
        rw [← hdiv]
        exact Nat.div_lt_of_lt_mul (Nat.mul_comm _ _ ▸ hm)
      obtain ⟨hdone, hnext⟩ := h.tick_boundary hi hp
      rw [hdiv, hmod]
      exact ⟨hnext, hdone⟩

/-- The last tick of a turn of n pulses is tick 1 + 2·n·H. -/
theorem sduTicks_turn {s : State} (hs : s.sdu.state = .setup) (hc : s.sdu.stepCnt = 0) (hn : 1 ≤ s.sdu.rem.toNat)
    (hH : 1 ≤ s.sdu.half.toNat) :
    (sduTick (sduTicks (2 * s.sdu.rem.toNat * s.sdu.half.toNat) s)).2 = true ∧
    (sduTicks (1 + 2 * s.sdu.rem.toNat * s.sdu.half.toNat) s).sdu.state = .idle ∧
    (sduTicks (1 + 2 * s.sdu.rem.toNat * s.sdu.half.toNat) s).sdu.stepCnt = s.sdu.rem ∧
    (sduTicks (1 + 2 * s.sdu.rem.toNat * s.sdu.half.toNat) s).sdu.pos =
      advancePos s.sdu.turnDir s.sdu.mscode s.sdu.turnN s.sdu.pos := by
  obtain ⟨m, hm⟩ : ∃ m, 2 * s.sdu.rem.toNat * s.sdu.half.toNat = m + 1 :=
    Nat.exists_eq_succ_of_ne_zero (by positivity)
  obtain ⟨h, _⟩ := sduTicks_inHold hs hc hH m (by omega)
  have hdm : (m + 1) / s.sdu.half.toNat = 2 * s.sdu.rem.toNat ∧ (m + 1) % s.sdu.half.toNat = 0 := by
    rw [← hm]
    exact ⟨Nat.mul_div_cancel _ hH, Nat.mul_mod_left _ _⟩
  rw [hm, Nat.add_comm 1, sduTicks_succ (m + 1)]
  rcases div_mod_succ m hH with ⟨_, _, hmod⟩ | ⟨hi, hdiv, _⟩
  · omega
  · have hlast := h.tick_last hi (by omega)
    rwa [sduTicks_keeps (·.sdu.turnDir) fun t => (sduTick_frame t).turnDir,
      sduTicks_keeps (·.sdu.mscode) fun t => (sduTick_frame t).mscode,
      sduTicks_keeps (·.sdu.turnN) fun t => (sduTick_frame t).turnN] at hlast

/-- Settles O38: the ticks before the last by `InHold`, the last by `sduTicks_turn`. -/
theorem turnTakesItsExactTime : Obligations.TurnTakesItsExactTime := by
  rintro s _ _ hs hc rfl rfl hn hH
  obtain ⟨hdone, hidle, hcnt, hpos⟩ := sduTicks_turn hs hc hn hH
  refine ⟨fun m hm => ?_, hdone, hidle, congrArg _ hcnt, hpos⟩
  obtain ⟨h, hrun⟩ := sduTicks_inHold hs hc hH m hm
  rw [Nat.add_comm 1]
  refine ⟨hrun, h.state, ?_, h.pos⟩
  rw [h.stepCnt, Nat.div_div_eq_div_mul, Nat.mul_comm]

/-! ## There and back (41_stepper_drive R274) -/

theorem advancePos_ccw_cw (p : Preset) (n pos : DWord) : advancePos .ccw p n (advancePos .cw p n pos) = pos :=
  add_sub_cancel_right _ _

/-- A turn of the host run to its end: the block is idle again, POS is moved once, and the drive's settings stay. -/
theorem turn_runs_to_end {s : State} (hb : s.busyNow = false) (hn : 1 ≤ s.host.arg0.toNat) {d : Dir}
    (hd : s.arg1Dir = d) :
    ∃ s1 t, exec .turn s = .next s1 ∧ sduTicks (1 + 2 * s.host.arg0.toNat * s1.sdu.half.toNat) s1 = t ∧
      t.busyNow = false ∧ t.sdu.mscode = s.sdu.mscode ∧ t.sdu.corr = s.sdu.corr ∧
      t.sdu.pos = advancePos d s.sdu.mscode s.arg0Steps s.sdu.pos := by
  subst hd
  have hrem : s.arg0Steps.toNat = s.host.arg0.toNat := by
    rw [State.arg0Steps, BitVec.toNat_setWidth_of_le (by norm_num)]
  obtain ⟨_, hidle⟩ := State.busyNow_eq_false.1 hb
  refine ⟨_, _, exec_turn_started hb hn, rfl, ?_⟩
  generalize hs1 : State.complete .ok (s.startTurn s.arg1Dir s.arg0Steps .host) = s1
  obtain ⟨-, hstate, -, hpos⟩ := sduTicks_turn (s := s1) (by rw [← hs1]; rfl) (by rw [← hs1]; rfl)
    (by rw [← hs1]; exact hrem.symm ▸ hn) (by rw [← hs1]; exact halfPeriod_register_pos _ _ _)
  have hrem1 : s1.sdu.rem.toNat = s.host.arg0.toNat := by rw [← hs1]; exact hrem
  rw [hrem1] at hstate hpos
  rw [State.busyNow_eq_false, hstate, hpos, sduTicks_keeps (·.ssm) fun t => (sduTick_frame t).ssm,
    sduTicks_keeps (·.sdu.mscode) fun t => (sduTick_frame t).mscode,
    sduTicks_keeps (·.sdu.corr) fun t => (sduTick_settings t).2.1, ← hs1]
  exact ⟨⟨rfl, hidle⟩, rfl, rfl, rfl⟩

/-- Settles O39: two runs of `turn_runs_to_end`; ANGLE depends on POS and CORR only. -/
theorem cwThenCcwRestoresPosition : Obligations.CwThenCcwRestoresPosition := by
  intro s n hb hn
  obtain ⟨s1, t1, h1, e1, hb1, hm1, hc1, hp1⟩ :=
    turn_runs_to_end (s := { s with host := { s.host with arg0 := n, arg1 := 0 } }) hb hn (d := .cw)
      (by simp [State.arg1Dir])
  obtain ⟨s3, t3, h3, e3, hb3, hm3, hc3, hp3⟩ :=
    turn_runs_to_end (s := { t1 with host := { t1.host with arg0 := n, arg1 := 1 } }) hb1 hn (d := .ccw)
      (by simp [State.arg1Dir])
  have hpos : t3.sdu.pos = s.sdu.pos :=
    calc t3.sdu.pos
      _ = advancePos .ccw t1.sdu.mscode (n.setWidth 64) t1.sdu.pos := hp3
      _ = advancePos .ccw s.sdu.mscode (n.setWidth 64) (advancePos .cw s.sdu.mscode (n.setWidth 64) s.sdu.pos) :=
        congrArg₂ (advancePos .ccw · (n.setWidth 64) ·) hm1 hp1
      _ = s.sdu.pos := advancePos_ccw_cw _ _ _
  exact ⟨s1, s3, h1, e1 ▸ (State.busyNow_eq_false.1 hb1).1, e1.symm ▸ h3, e3 ▸ (State.busyNow_eq_false.1 hb3).1,
    e3 ▸ hpos, by rw [e3, State.angle, State.angle, hpos, hc3.trans hc1]⟩

end Sys2Proof.Machine

namespace Sys2Proof.Machine

/-! ## What changes the drive (41_stepper_drive R275)

A command or an SSM tick leaves the drive as it is or starts a turn; the three SET commands also set it up. -/

/-- The drive is left as it is, or a turn starts. -/
inductive DriveChange (s : State) : Sdu → Prop
  | keep : DriveChange s s.sdu
  | start (d : Dir) (n : DWord) (o : Origin) : DriveChange s (s.startTurn d n o).sdu

/-- One of the drive's settings is written by its command. -/
inductive DriveSetting (d : Sdu) : Instr → Sdu → Prop
  | mscode (p : Preset) : DriveSetting d .setRes { d with mscode := p }
  | speed (v : Word) : DriveSetting d .setSpeed { d with speed := v }
  | corr (c : F64) : DriveSetting d .setCorr { d with corr := c }

/-- A turn has just started: no pulse is done. -/
structure Sdu.Fresh (d : Sdu) : Prop where
  state : d.state = .setup
  stepCnt : d.stepCnt = 0
  rem : d.rem = d.turnN

/-- DIR, TURN_N and HALF are the same in both. -/
structure Sdu.SameTurn (d d' : Sdu) : Prop where
  turnDir : d'.turnDir = d.turnDir
  turnN : d'.turnN = d.turnN
  half : d'.half = d.half

section Change

variable {s : State} {d : Sdu}

/-- DriveChange speaks of the drive and the parameters only. -/
theorem DriveChange.congr {s' : State} (h : DriveChange s' d) (hd : s'.sdu = s.sdu) (hp : s'.params = s.params) :
    DriveChange s d := by
  cases h with
  | keep => rw [hd]; exact .keep
  | start dir n o => simpa [State.startTurn, hd, hp] using DriveChange.start (s := s) dir n o

theorem DriveChange.config (h : DriveChange s d) :
    d.mscode = s.sdu.mscode ∧ d.speed = s.sdu.speed ∧ d.corr = s.sdu.corr ∧ d.pos = s.sdu.pos := by
  cases h <;> exact ⟨rfl, rfl, rfl, rfl⟩

theorem DriveChange.keep_or_fresh (h : DriveChange s d) : d = s.sdu ∨ d.Fresh := by
  cases h with
  | keep => exact .inl rfl
  | start => exact .inr ⟨rfl, rfl, rfl⟩

end Change

namespace DriveSetting

variable {d d' : Sdu} {i : Instr}

theorem setRes_of_mscode_ne (h : DriveSetting d i d') (hne : d'.mscode ≠ d.mscode) : i = .setRes := by
  cases h with
  | mscode => rfl
  | speed | corr => exact absurd rfl hne

theorem setSpeed_of_speed_ne (h : DriveSetting d i d') (hne : d'.speed ≠ d.speed) : i = .setSpeed := by
  cases h with
  | speed => rfl
  | mscode | corr => exact absurd rfl hne

theorem setCorr_of_corr_ne (h : DriveSetting d i d') (hne : d'.corr ≠ d.corr) : i = .setCorr := by
  cases h with
  | corr => rfl
  | mscode | speed => exact absurd rfl hne

theorem pos (h : DriveSetting d i d') : d'.pos = d.pos := by cases h <;> rfl

/-- The registers of a turn are none of the settings. -/
theorem sameTurn (h : DriveSetting d i d') : d.SameTurn d' := by
  cases h <;> exact ⟨rfl, rfl, rfl⟩

theorem fresh (h : DriveSetting d i d') (hf : d.Fresh) : d'.Fresh := by
  obtain ⟨hstate, hcnt, hrem⟩ := hf
  cases h <;> exact ⟨hstate, hcnt, hrem⟩

end DriveSetting

theorem enterReturn_driveChange (c : SeqEnd) (s : State) : DriveChange s (s.enterReturn c).sdu := by
  rcases s.enterReturn_cases c with ⟨_, e⟩ | ⟨_, e⟩ <;> rw [e]
  · exact .keep
  · exact .start .ccw s.ssm.sweepAcc .seq

theorem ssmTick_driveChange (done : Bool) (s : State) : DriveChange s (ssmTick done s).sdu := by
  rcases ssmTick_cases done s with ⟨_, e⟩ | ⟨_, _, _, e⟩ | ⟨_, _, _, e⟩ | ⟨_, _, _, e⟩ |
    ⟨_, _, _, _, e⟩ | ⟨_, _, _, _, e⟩ | ⟨_, _, e⟩ | ⟨_, _, e⟩ | ⟨_, _, e⟩ <;> rw [e]
  · exact .keep
  · exact (enterReturn_driveChange _ _).congr rfl rfl
  · exact .keep
  · exact (enterReturn_driveChange _ _).congr rfl rfl
  · exact (enterReturn_driveChange _ _).congr rfl rfl
  · exact .keep
  · exact .keep
  · exact (enterReturn_driveChange _ _).congr rfl rfl
  · exact .keep

theorem CommandEffect.driveChange {s u : State} {i : Instr} (h : CommandEffect s i u) :
    DriveChange s u.sdu ∨ (s.busyNow = false ∧ DriveSetting s.sdu i u.sdu) := by
  cases h with
  | setRes p hb => exact .inr ⟨hb, .mscode p⟩
  | setSpeed hb => exact .inr ⟨hb, .speed _⟩
  | setCorr hb => exact .inr ⟨hb, .corr _⟩
  | turn => exact .inl (.start _ _ _)
  | sweepStart_prerot => exact .inl ((DriveChange.start (s := sweepPrepare s) _ _ _).congr rfl rfl)
  | ringDone => exact .inl ((DriveChange.start (s := s.countRing) _ _ _).congr rfl rfl)
  | sweepCancel_return => exact .inl (enterReturn_driveChange _ _)
  | _ => exact .inl .keep

theorem exec_driveChange {i : Instr} {s t : State} (h : exec i s = .next t) :
    DriveChange s t.sdu ∨ (s.busyNow = false ∧ DriveSetting s.sdu i t.sdu) := by
  rcases exec_next h with ⟨c, rfl⟩ | ⟨c, u, he, rfl⟩
  · exact .inl .keep
  · exact he.driveChange

@[simp] theorem State.writeReg_sdu (r : Reg) (v : Word) (s : State) : (s.writeReg r v).sdu = s.sdu := by
  cases r <;> rfl

/-- In the bus phase the drive's settings change by a CMD write of their command's word that finds nothing moving. -/
theorem busPhase_driveChange {acc : Option BusAccess} {s b : State} (h : busPhase acc s = .next b) :
    DriveChange s b.sdu ∨
      ∃ i, acc = some (.write 0x004 4 (encode i)) ∧ s.busyNow = false ∧ DriveSetting s.sdu i b.sdu := by
  rcases busPhase_next h with ⟨_, rfl⟩ | ⟨a, _, _, rfl⟩ | ⟨a, v, _, _, _, rfl⟩ | ⟨a, v, hacc, ha, hd⟩
  · exact .inl .keep
  · exact .inl .keep
  · rcases State.writeWord_cases a v (s.setReadData none) with ⟨r, _, e⟩ | e <;> rw [e]
    · rw [State.writeReg_sdu]; exact .inl .keep
    · exact .inl .keep
  · rcases dispatchCommand_cases v (s.setReadData none) with ⟨i, hdec, e⟩ | ⟨_, _, e⟩
    · rcases exec_driveChange (e.symm.trans hd) with hc | ⟨hb, hset⟩
      · exact .inl (hc.congr rfl rfl)
      · refine .inr ⟨i, ?_, hb, hset⟩
        rw [hacc, eq_encode_of_decode hdec, show a = (0x004 : Addr) from BitVec.eq_of_toNat_eq ha]
    · cases e.symm.trans hd
      exact .inl .keep

theorem afterBus_sdu (rx : Option Byte) (s : State) : (afterBus rx s).sdu = s.sdu := by
  have hrx : (rxPhase rx s).sdu = s.sdu := by
    rcases rxPhase_cases rx s with ⟨_, e⟩ | ⟨_, _, _, e⟩ | ⟨_, _, _, e⟩ <;> simp [e]
  rw [afterBus]
  rcases levelPhase_cases (rxPhase rx s) with ⟨_, e⟩ | ⟨_, e⟩ <;> rw [e] <;> exact hrx

/-- What the ticks of a cycle leave of the drive. -/
structure TickedDrive (s : State) (d : Sdu) : Prop where
  mscode : d.mscode = s.sdu.mscode
  speed : d.speed = s.sdu.speed
  corr : d.corr = s.sdu.corr
  pos : d.pos = s.sdu.pos ∨ (s.sdu.state = .low ∧ s.sdu.phCnt = 1 ∧ s.sdu.rem = 1)
  turn : s.sdu.SameTurn d ∨ d.Fresh

theorem atBusPhase_drive (s : State) : TickedDrive s s.atBusPhase.sdu := by
  rw [State.atBusPhase, ticks]
  have f := sduTick_frame { s with inputs := s.inputs.tail }
  have hpos := sduTick_pos { s with inputs := s.inputs.tail }
  obtain ⟨hspeed, hcorr, hhalf⟩ := sduTick_settings { s with inputs := s.inputs.tail }
  generalize sduTick { s with inputs := s.inputs.tail } = p at f hpos hspeed hcorr hhalf
  have hc := ssmTick_driveChange p.2 p.1
  obtain ⟨em, es, ec, ep⟩ := hc.config
  refine ⟨em.trans f.mscode, es.trans hspeed, ec.trans hcorr, by rw [ep]; exact hpos, ?_⟩
  rcases hc.keep_or_fresh with e | hfresh
  · rw [e]; exact .inl ⟨f.turnDir, f.turnN, hhalf⟩
  · exact .inr hfresh

/-- Settles O42: the ticks leave MSCODE, SPEED and CORR, and move POS at the last pulse only; the bus phase leaves POS;
both touch the turn's registers only by starting a turn. -/
theorem motorStateChangesOnlyAsAllowed : Obligations.MotorStateChangesOnlyAsAllowed := by
  intro s t hr h
  obtain ⟨b, hb, rfl⟩ := step_next_noReset hr h
  have before := atBusPhase_drive s
  rw [afterBus_sdu, ← before.mscode, ← before.speed, ← before.corr]
  have hturn {d : Sdu} (hd : s.sdu.SameTurn d ∨ d.Fresh) (hne : d.turnDir ≠ s.sdu.turnDir ∨ d.turnN ≠ s.sdu.turnN ∨
      d.half ≠ s.sdu.half) : d.state = .setup ∧ d.stepCnt = 0 ∧ d.rem = d.turnN := by
    rcases hd with ⟨h1, h2, h3⟩ | ⟨h1, h2, h3⟩
    · simp [h1, h2, h3] at hne
    · exact ⟨h1, h2, h3⟩
  rcases busPhase_driveChange hb with hc | ⟨i, hacc, hidle, hset⟩
  · obtain ⟨em, es, ec, ep⟩ := hc.config
    refine ⟨fun hne => absurd em hne, fun hne => absurd es hne, fun hne => absurd ec hne, fun hne => ?_, hturn ?_⟩
    · rw [ep] at hne
      exact before.pos.resolve_left hne
    · rcases hc.keep_or_fresh with e | hfresh
      · rw [e]; exact before.turn
      · exact .inr hfresh
  · refine ⟨fun hne => ⟨?_, hidle⟩, fun hne => ⟨?_, hidle⟩, fun hne => ⟨?_, hidle⟩, fun hne => ?_, hturn ?_⟩
    · rw [hacc, hset.setRes_of_mscode_ne hne]; rfl
    · rw [hacc, hset.setSpeed_of_speed_ne hne]; rfl
    · rw [hacc, hset.setCorr_of_corr_ne hne]; rfl
    · rw [hset.pos] at hne
      exact before.pos.resolve_left hne
    · obtain ⟨h1, h2, h3⟩ := hset.sameTurn
      rcases before.turn with ⟨h1', h2', h3'⟩ | hfresh
      · exact .inl ⟨h1.trans h1', h2.trans h2', h3.trans h3'⟩
      · exact .inr (hset.fresh hfresh)

end Sys2Proof.Machine

namespace Sys2Proof.Machine

/-! ## The nearest integer (00_scope R12) -/

/-- Half-way between two integers `roundHalfEven` takes the even one. -/
theorem roundHalfEven_even_of_tie {a b : Nat} (hb : 0 < b)
    (h : 2 * a = 2 * (roundHalfEven a b * b) + b ∨ 2 * (roundHalfEven a b * b) = 2 * a + b) :
    roundHalfEven a b % 2 = 0 := by
  have hd := Nat.div_add_mod a b
  have hm := Nat.mod_lt a hb
  have hsucc : (a / b + 1) * b = a / b * b + b := Nat.succ_mul _ _
  rw [Nat.mul_comm] at hd
  simp only [roundHalfEven] at h ⊢
  split_ifs at h ⊢ <;> omega

/-- No multiple of b is nearer to a than the one `roundHalfEven` chooses, and if another is as near, it chose an even
one. -/
theorem roundHalfEven_nearest (a : Nat) {b : Nat} (hb : 0 < b) (k : Int) :
    ((roundHalfEven a b * b : Nat) - a : Int).natAbs ≤ (k * b - a).natAbs ∧
      (((roundHalfEven a b * b : Nat) - a : Int).natAbs = (k * b - a).natAbs →
        k = roundHalfEven a b ∨ roundHalfEven a b % 2 = 0) := by
  obtain ⟨hup, hlo⟩ := roundHalfEven_close a b hb
  have heven := @roundHalfEven_even_of_tie a b hb
  generalize roundHalfEven a b = r at *
  have hr : ((r * b : Nat) : Int) = r * b := Nat.cast_mul r b
  have hb' : (0 : Int) ≤ b := Int.natCast_nonneg b
  rcases lt_trichotomy k r with hk | hk | hk
  · have hstep : (k + 1) * b ≤ (r : Int) * b := mul_le_mul_of_nonneg_right hk hb'
    rw [add_one_mul] at hstep
    exact ⟨by omega, fun h => .inr (heven (by omega))⟩
  · rw [hk, hr]
    exact ⟨le_rfl, fun _ => .inl rfl⟩
  · have hstep : ((r : Int) + 1) * b ≤ k * b := mul_le_mul_of_nonneg_right hk hb'
    rw [add_one_mul] at hstep
    exact ⟨by omega, fun h => .inr (heven (by omega))⟩

/-! ## The significand and exponent of a rounded value (00_scope R10) -/

/-- The exponent of the last place of the value n/b in units of 2^-1074: 0 in the subnormal range. -/
def rneExp (n b : Nat) : Nat := (n / b).log2 - 52

/-- n/b rounded to an integer of last places. -/
def rneSig (n b : Nat) : Nat := roundHalfEven n (b * 2 ^ rneExp n b)

theorem two_mul_scale_le (b : Nat) {i j : Nat} (h : i < j) : 2 * (b * 2 ^ i) ≤ b * 2 ^ j :=
  calc 2 * (b * 2 ^ i)
    _ = b * 2 ^ (i + 1) := by rw [pow_succ]; ring
    _ ≤ b * 2 ^ j := Nat.mul_le_mul_left _ (Nat.pow_le_pow_right two_pos h)

section Significand

variable (n : Nat) {b : Nat}

/-- Above the subnormal range the value has 53 bits before the last place. -/
theorem rneExp_zero_or_le : rneExp n b = 0 ∨ 2 ^ 52 * (b * 2 ^ rneExp n b) ≤ n := by
  refine or_iff_not_imp_left.2 fun he => ?_
  have hq : n / b ≠ 0 := fun h0 => he (by rw [rneExp, h0]; rfl)
  have hexp : 52 + rneExp n b = (n / b).log2 := by
    have : (n / b).log2 - 52 ≠ 0 := he
    rw [rneExp]; omega
  calc 2 ^ 52 * (b * 2 ^ rneExp n b)
    _ = 2 ^ (n / b).log2 * b := by rw [← hexp, pow_add]; ring
    _ ≤ n / b * b := Nat.mul_le_mul_right _ (Nat.log2_self_le hq)
    _ ≤ n := Nat.div_mul_le_self _ _

/-- No more than 53 bits stand before the last place. -/
theorem lt_rneExp (hb : 0 < b) : n < 2 ^ 53 * (b * 2 ^ rneExp n b) := by
  have hq : n / b < 2 ^ (53 + rneExp n b) :=
    lt_of_lt_of_le Nat.lt_log2_self (Nat.pow_le_pow_right two_pos (by rw [rneExp]; omega))
  calc n
    _ < 2 ^ (53 + rneExp n b) * b := (Nat.div_lt_iff_lt_mul hb).1 hq
    _ = 2 ^ 53 * (b * 2 ^ rneExp n b) := by rw [pow_add]; ring

theorem rneSig_le (hb : 0 < b) : rneSig n b ≤ 2 ^ 53 := by
  have hlt : n / (b * 2 ^ rneExp n b) < 2 ^ 53 := (Nat.div_lt_iff_lt_mul (by positivity)).2 (lt_rneExp n hb)
  have hr := (roundHalfEven_bounds n (b * 2 ^ rneExp n b)).2
  rw [rneSig]
  omega

theorem rneSig_ge (hb : 0 < b) : rneExp n b = 0 ∨ 2 ^ 52 ≤ rneSig n b :=
  (rneExp_zero_or_le n).imp_right fun h =>
    ((Nat.le_div_iff_mul_le (by positivity)).2 h).trans (roundHalfEven_bounds _ _).1

/-- The rounded value is below 2^53 places of exponent E exactly if the value is below the half-way point between
that and the last value before it, of significand 2^53 - 1; at that point the tie goes to the even 2^53. -/
theorem rneSig_lt_iff (hb : 0 < b) (E : Nat) : rneExp n b * 2 ^ 52 + rneSig n b < (E + 2) * 2 ^ 52 ↔
    2 * n < (2 ^ 54 - 1) * (b * 2 ^ E) := by
  have hlt := lt_rneExp n hb
  have hm := rneSig_le n hb
  rcases lt_trichotomy (rneExp n b) E with he | he | he
  · have hpow := two_mul_scale_le b he
    generalize b * 2 ^ E = B at *
    exact iff_of_true (by omega) (by omega)
  · have hB : 0 < b * 2 ^ rneExp n b := by positivity
    have hclose := roundHalfEven_close n _ hB
    have htie := @roundHalfEven_even_of_tie n _ hB
    rw [← rneSig] at hclose htie
    rw [← he]
    generalize rneSig n b = m at *
    generalize b * 2 ^ rneExp n b = B at *
    obtain hm | hm | hm : m + 2 ≤ 2 ^ 53 ∨ m + 1 = 2 ^ 53 ∨ m = 2 ^ 53 := by omega
    · have hmul := Nat.mul_le_mul_right B hm
      rw [Nat.add_mul m] at hmul
      exact iff_of_true (by omega) (by omega)
    · have hmul : m * B + B = 2 ^ 53 * B := by rw [← hm, Nat.succ_mul]
      refine iff_of_true (by omega) (lt_of_not_ge fun hge => ?_)
      have := htie (.inl (by omega))
      omega
    · have hmul : m * B = 2 ^ 53 * B := by rw [hm]
      exact iff_of_false (by omega) (by omega)
  · have hpow := two_mul_scale_le b he
    have he0 : rneExp n b ≠ 0 := by omega
    have hle := (rneExp_zero_or_le n).resolve_left he0
    have hsig := (rneSig_ge n hb).resolve_left he0
    have hB : 0 < b * 2 ^ E := by positivity
    generalize b * 2 ^ E = B at *
    exact iff_of_false (by omega) (by omega)

/-- In units of 2^-1074 and times the denominator: no multiple of the last place, and nothing below the last place's
binade, is nearer to n/b than the rounded value; if something is as near, the significand is even. -/
theorem rneSig_nearest (hb : 0 < b) {w : Int}
    (hw : w.natAbs < 2 ^ 52 * 2 ^ rneExp n b ∨ 2 ^ rneExp n b ∣ w.natAbs) :
    ((rneSig n b * 2 ^ rneExp n b : Nat) * b - n : Int).natAbs ≤ (w * b - n).natAbs ∧
      (((rneSig n b * 2 ^ rneExp n b : Nat) * b - n : Int).natAbs = (w * b - n).natAbs →
        w = (rneSig n b * 2 ^ rneExp n b : Nat) ∨ rneSig n b % 2 = 0) := by
  have hB : 0 < b * 2 ^ rneExp n b := by positivity
  have hmul (k : Int) : k * (2 ^ rneExp n b : Nat) * b = k * (b * 2 ^ rneExp n b : Nat) := by push_cast; ring
  have hsig : ((rneSig n b * 2 ^ rneExp n b : Nat) * b : Int) = (rneSig n b * (b * 2 ^ rneExp n b) : Nat) := by
    push_cast; ring
  have near := roundHalfEven_nearest n hB
  rw [← rneSig] at near
  rw [hsig]
  by_cases hdvd : 2 ^ rneExp n b ∣ w.natAbs
  · obtain ⟨k, hk⟩ := Int.natCast_dvd.2 hdvd
    rw [mul_comm] at hk
    rw [hk, hmul]
    refine ⟨(near k).1, fun h => ((near k).2 h).imp_left ?_⟩
    rintro rfl
    push_cast; ring
  · have hsmall := hw.resolve_right hdvd
    have he : rneExp n b ≠ 0 := fun h => hdvd (by rw [h]; exact one_dvd _)
    have hle := (rneExp_zero_or_le n).resolve_left he
    have hwb : w * b < (2 ^ 52 * (b * 2 ^ rneExp n b) : Nat) := by
      have : w < (2 ^ 52 * 2 ^ rneExp n b : Nat) := by omega
      calc w * b
        _ < (2 ^ 52 * 2 ^ rneExp n b : Nat) * b := mul_lt_mul_of_pos_right this (by exact_mod_cast hb)
        _ = (2 ^ 52 * (b * 2 ^ rneExp n b) : Nat) := by push_cast; ring
    have hbin := (near (2 ^ 52 : Nat)).1
    rw [← Nat.cast_mul] at hbin
    omega

end Significand

end Sys2Proof.Machine

namespace Sys2Proof.Machine

/-! ## The pattern of a rounded value (00_scope R10) -/

theorem F64.natAbs_scaled (b : F64) : (F64.scaled b).natAbs = F64.magnitude b := by
  rw [F64.scaled]
  split
  · rw [Int.natAbs_neg, Int.natAbs_natCast]
  · rw [Int.natAbs_natCast]

/-- Every magnitude is a multiple of the last place of exponent e, or lies below that place's binade. -/
theorem F64.magnitude_lt_or_dvd (b : F64) (e : Nat) :
    F64.magnitude b < 2 ^ 52 * 2 ^ e ∨ 2 ^ e ∣ F64.magnitude b := by
  have hfrac : F64.fracField b < 2 ^ 52 := Nat.mod_lt _ (by norm_num)
  rw [F64.magnitude]
  split
  · exact .inl (hfrac.trans_le (Nat.le_mul_of_pos_right _ (by positivity)))
  · rcases Nat.lt_or_ge (F64.expField b - 1) e with h | h
    · left
      calc (F64.fracField b + 2 ^ 52) * 2 ^ (F64.expField b - 1)
        _ < 2 ^ 53 * 2 ^ (F64.expField b - 1) := Nat.mul_lt_mul_of_pos_right (by omega) (by positivity)
        _ = 2 ^ 52 * 2 ^ (F64.expField b - 1 + 1) := by rw [pow_succ]; ring
        _ ≤ 2 ^ 52 * 2 ^ e := Nat.mul_le_mul_left _ (Nat.pow_le_pow_right two_pos h)
    · exact .inr (Dvd.dvd.mul_left (pow_dvd_pow 2 h) _)

/-- The fields of a pattern put together from a sign and 63 bits. -/
theorem F64.fields_ofNat {neg p : Nat} (hn : neg ≤ 1) (hp : p < 2 ^ 63) :
    F64.expField (BitVec.ofNat 64 (neg * 2 ^ 63 + p)) = p / 2 ^ 52 ∧
      F64.fracField (BitVec.ofNat 64 (neg * 2 ^ 63 + p)) = p % 2 ^ 52 := by
  rw [F64.expField, F64.fracField, F64.ofNat_toNat _ (by omega)]
  omega

/-- A significand of at most 53 bits times 2^e has the pattern that counts up from e·2^52, over the whole finite
range. -/
theorem F64.magnitude_of_significand {neg e m : Nat} (hn : neg ≤ 1) (hm : m ≤ 2 ^ 53) (h : e = 0 ∨ 2 ^ 52 ≤ m)
    (hfin : e * 2 ^ 52 + m < 0x7FF * 2 ^ 52) :
    F64.finite (BitVec.ofNat 64 (neg * 2 ^ 63 + (e * 2 ^ 52 + m))) = true ∧
      F64.magnitude (BitVec.ofNat 64 (neg * 2 ^ 63 + (e * 2 ^ 52 + m))) = m * 2 ^ e := by
  obtain ⟨hexp, hfrac⟩ := F64.fields_ofNat (neg := neg) (p := e * 2 ^ 52 + m) hn (by omega)
  rw [F64.finite, F64.magnitude, hexp, hfrac, bne_iff_ne]
  refine ⟨by omega, ?_⟩
  obtain hsub | ⟨hlo, hhi⟩ | htop : m < 2 ^ 52 ∨ (2 ^ 52 ≤ m ∧ m < 2 ^ 53) ∨ m = 2 ^ 53 := by omega
  · obtain rfl : e = 0 := by omega
    rw [if_pos (by omega), pow_zero]
    omega
  · rw [if_neg (by omega), show (e * 2 ^ 52 + m) % 2 ^ 52 + 2 ^ 52 = m by omega,
      show (e * 2 ^ 52 + m) / 2 ^ 52 - 1 = e by omega]
  · rw [if_neg (by omega), show (e * 2 ^ 52 + m) % 2 ^ 52 + 2 ^ 52 = 2 ^ 52 by omega,
      show (e * 2 ^ 52 + m) / 2 ^ 52 - 1 = 1 + e by omega, htop, pow_add]
    ring

theorem rneMagnitude_eq (a b : Nat) : rneMagnitude a b =
    min (rneExp (a * f64Unit) b * 2 ^ 52 + rneSig (a * f64Unit) b) (0x7FF * 2 ^ 52) := rfl

/-- What `rne64` returns below the overflow bound: the value of significand and exponent with the sign of the
numerator. -/
theorem rne64_finite {num : Int} {den : Nat} (hd : 0 < den) {e m : Nat} (he : e = rneExp (num.natAbs * f64Unit) den)
    (hmdef : m = rneSig (num.natAbs * f64Unit) den) (hfin : e * 2 ^ 52 + m < 0x7FF * 2 ^ 52) :
    F64.finite (rne64 num den) = true ∧
      F64.scaled (rne64 num den) = (if 0 ≤ num then ((m * 2 ^ e : Nat) : Int) else -(m * 2 ^ e : Nat)) ∧
      (m % 2 = 0 → (rne64 num den).getLsbD 0 = false) := by
  have hm : m ≤ 2 ^ 53 := hmdef ▸ rneSig_le _ hd
  have hnorm : e = 0 ∨ 2 ^ 52 ≤ m := he ▸ hmdef ▸ rneSig_ge _ hd
  have hmag : rneMagnitude num.natAbs den = e * 2 ^ 52 + m := by
    rw [rneMagnitude_eq, ← he, ← hmdef]
    exact min_eq_left hfin.le
  have hbit {x : Nat} (hx : x % 2 = 0) : (BitVec.ofNat 64 x : F64).getLsbD 0 = false := by
    rw [BitVec.getLsbD_ofNat, Nat.testBit_zero, hx]; rfl
  rw [rne64, hmag]
  split
  · obtain ⟨hf, hv⟩ := F64.magnitude_of_significand (neg := 0) (by norm_num) hm hnorm hfin
    rw [Nat.zero_mul, Nat.zero_add] at hf hv
    refine ⟨hf, ?_, fun hev => hbit (by omega)⟩
    rw [F64.scaled, F64.sign_ofNat_pos _ (by omega), hv]
    rfl
  · split
    · obtain rfl : m = 0 := by omega
      rw [Nat.zero_mul]
      split
      · exact ⟨by decide, by decide, fun _ => by decide⟩
      · exact ⟨by decide, by decide, fun _ => by decide⟩
    · obtain ⟨hf, hv⟩ := F64.magnitude_of_significand (neg := 1) (by norm_num) hm hnorm hfin
      rw [Nat.one_mul] at hf hv
      refine ⟨hf, ?_, fun hev => hbit (by omega)⟩
      rw [F64.scaled, F64.sign_ofNat_neg _ (by omega), hv]
      rfl

/-! ## Rounding once (00_scope R10) -/

theorem cast_natAbs_eq_abs (z : Int) : ((z.natAbs : Nat) : ℚ) = |(z : ℚ)| := by
  rw [Nat.cast_natAbs, Int.cast_abs]

/-- The distance of a pattern's value from num/den, as an integer over a common denominator. -/
theorem F64.abs_toRat_sub (b : F64) (num : Int) {den : Nat} (hd : 0 < den) :
    |F64.toRat b - num / den| = ((F64.scaled b * den - num * f64Unit).natAbs : ℚ) / (f64Unit * den) := by
  have hu := f64Unit_pos
  have hd' : (0 : ℚ) < den := by exact_mod_cast hd
  rw [F64.toRat, div_sub_div _ _ hu.ne' hd'.ne', abs_div, abs_of_pos (mul_pos hu hd'), cast_natAbs_eq_abs]
  push_cast
  rw [mul_comm (f64Unit : ℚ) num]

/-- An integer's distance from the numerator is that of the integer with the numerator's sign from its magnitude. -/
theorem natAbs_sub_of_sign (x num : Int) (den U : Nat) :
    (x * den - num * U).natAbs =
      ((if 0 ≤ num then x else -x) * den - (num.natAbs * U : Nat)).natAbs := by
  split
  · rename_i h
    rw [Nat.cast_mul, Int.natAbs_of_nonneg h]
  · rename_i h
    rw [Nat.cast_mul, Int.ofNat_natAbs_of_nonpos (by omega), ← Int.natAbs_neg]
    congr 1
    ring

/-- Below the overflow bound no pattern's value is nearer to num/den than that of `rne64`; where another value is as
near, the significand is even. -/
theorem rne64_nearest {num : Int} {den : Nat} (hd : 0 < den) (hfin : rneExp (num.natAbs * f64Unit) den * 2 ^ 52 +
      rneSig (num.natAbs * f64Unit) den < 0x7FF * 2 ^ 52) (b : F64) :
    |F64.toRat (rne64 num den) - num / den| ≤ |F64.toRat b - num / den| ∧
      (|F64.toRat (rne64 num den) - num / den| = |F64.toRat b - num / den| →
        F64.toRat b = F64.toRat (rne64 num den) ∨ (rne64 num den).getLsbD 0 = false) := by
  obtain ⟨-, hv, heven⟩ := rne64_finite hd rfl rfl hfin
  have hD : (0 : ℚ) < f64Unit * den := mul_pos f64Unit_pos (by exact_mod_cast hd)
  set w : Int := if 0 ≤ num then F64.scaled b else -F64.scaled b with hwdef
  have hw : w.natAbs = F64.magnitude b := by
    rw [hwdef]
    split
    · exact F64.natAbs_scaled b
    · rw [Int.natAbs_neg]; exact F64.natAbs_scaled b
  have hsign : (if 0 ≤ num then F64.scaled (rne64 num den) else -F64.scaled (rne64 num den)) =
      (rneSig (num.natAbs * f64Unit) den * 2 ^ rneExp (num.natAbs * f64Unit) den : Nat) := by
    rw [hv]
    split
    · rfl
    · exact neg_neg _
  obtain ⟨hle, htie⟩ := rneSig_nearest (num.natAbs * f64Unit) hd (w := w) (hw ▸ F64.magnitude_lt_or_dvd b _)
  rw [F64.abs_toRat_sub _ _ hd, F64.abs_toRat_sub _ _ hd, natAbs_sub_of_sign, natAbs_sub_of_sign _ num, ← hwdef, hsign]
  refine ⟨div_le_div_of_nonneg_right (by exact_mod_cast hle) hD.le, fun h => ?_⟩
  rw [div_left_inj' hD.ne', Nat.cast_inj] at h
  refine (htie h).imp (fun e => ?_) heven
  have hscaled : F64.scaled b = F64.scaled (rne64 num den) := by
    rw [← hsign, hwdef] at e
    split at e
    · exact e
    · exact neg_injective e
  rw [F64.toRat, F64.toRat, hscaled]

/-- From the overflow bound on `rne64` returns the infinity of the quotient's sign. -/
theorem rne64_overflow {num : Int} {den : Nat} (hd : 0 < den) (hover : 0x7FF * 2 ^ 52 ≤
      rneExp (num.natAbs * f64Unit) den * 2 ^ 52 + rneSig (num.natAbs * f64Unit) den) :
    rne64 num den = if (num / den : ℚ) < 0 then 0xFFF0000000000000 else 0x7FF0000000000000 := by
  have hmag : rneMagnitude num.natAbs den = 0x7FF * 2 ^ 52 := by
    rw [rneMagnitude_eq]
    exact min_eq_right hover
  have hneg : (num / den : ℚ) < 0 ↔ num < 0 := by
    rw [div_lt_iff₀ (by exact_mod_cast hd), zero_mul, Int.cast_lt_zero]
  rw [rne64, hmag]
  split
  · rw [if_neg (by rw [hneg]; omega)]; rfl
  · rw [if_neg (by norm_num), if_pos (by rw [hneg]; omega)]; rfl

theorem rne64_zero (den : Nat) : rne64 0 den = 0 := by
  simp [rne64, rneMagnitude, roundHalfEven]

/-- The overflow bound of RNE64, 2^1024 - 2^970, in units of 2^-1074 and times the denominator. -/
theorem rne_lt_overflow_iff (num : Int) {den : Nat} (hd : 0 < den) :
    rneExp (num.natAbs * f64Unit) den * 2 ^ 52 + rneSig (num.natAbs * f64Unit) den < 0x7FF * 2 ^ 52 ↔
      |(num / den : ℚ)| < 2 ^ 1024 - 2 ^ 970 := by
  have hd' : (0 : ℚ) < den := by exact_mod_cast hd
  rw [rneSig_lt_iff _ hd 2045, abs_div, Nat.abs_cast, div_lt_iff₀ hd', ← cast_natAbs_eq_abs, ← Nat.cast_lt (α := ℚ)]
  have h54 : ((2 ^ 54 - 1 : Nat) : ℚ) = 2 ^ 54 - 1 := by norm_num
  have h1024 : (2 : ℚ) ^ 1024 = 2 ^ 54 * 2 ^ 970 := by rw [← pow_add]
  have h2045 : (2 : ℚ) ^ 2045 = 2 * f64Unit * 2 ^ 970 := by rw [f64Unit_cast, ← pow_succ', ← pow_add]
  have hu : (0 : ℚ) < 2 * f64Unit := mul_pos two_pos f64Unit_pos
  rw [Nat.cast_mul (2 ^ 54 - 1), h54]
  simp only [Nat.cast_mul, Nat.cast_pow, Nat.cast_ofNat]
  rw [h1024, h2045]
  generalize (2 : ℚ) ^ 970 = P, (f64Unit : ℚ) = U at *
  rw [← mul_lt_mul_iff_right₀ hu (b := (num.natAbs : ℚ))]
  refine iff_of_eq (congrArg₂ (· < ·) (by ring) (by ring))

/-- Settles O41: ANGLE is `rne64` of the exact quotient. -/
theorem angleIsRoundedOnce : Obligations.AngleIsRoundedOnce := by
  rintro s _ _ rfl
  have hd : 0 < 3200 * f64Unit := Nat.mul_pos (by norm_num) (by exact_mod_cast f64Unit_pos)
  have hq : (s.sdu.pos.toInt : ℚ) * 360 * F64.toRat s.sdu.corr / 3200 =
      (s.sdu.pos.toInt * 360 * F64.scaled s.sdu.corr : Int) / (3200 * f64Unit : Nat) := by
    rw [F64.toRat]
    have hu := f64Unit_pos.ne'
    push_cast
    generalize (f64Unit : ℚ) = U at *
    field_simp
  rw [hq, State.angle, ← rne_lt_overflow_iff _ hd, ← not_lt (a := |_|), ← rne_lt_overflow_iff _ hd, not_lt]
  refine ⟨fun h0 => ?_, fun hlt => ⟨(rne64_finite hd rfl rfl hlt).1, fun b _ => rne64_nearest hd hlt b⟩,
    rne64_overflow hd⟩
  rw [h0]
  simpa using rne64_zero (3200 * f64Unit)

end Sys2Proof.Machine

namespace Sys2Proof.Machine

/-! ## A step as the stepper drive and the sweep sequencer see it

A statement about these two units needs two facts: what the ticks do, and what the work of a command does. -/

/-- TURN_COMPLETE moves POS by the whole turn (41_stepper_drive R269). -/
theorem sduTick_pos_of_done {s : State} (h : (sduTick s).2 = true) :
    (sduTick s).1.sdu.pos = advancePos s.sdu.turnDir s.sdu.mscode s.sdu.turnN s.sdu.pos := by
  rcases sduTick_cases s with ⟨_, e⟩ | ⟨_, e⟩ | ⟨_, _, e⟩ | ⟨_, _, e⟩ | ⟨_, _, _, e⟩ | ⟨_, _, _, e⟩
  case inr.inr.inr.inr.inr => -- the last pulse: TURN_COMPLETE
    rw [e]
    rcases turnComplete_cases s.countPulse with ⟨_, e'⟩ | ⟨_, e'⟩ <;> simp [e']
  all_goals rw [e] at h; cases h

theorem sduTick_pos_of_running {s : State} (h : (sduTick s).2 = false) : (sduTick s).1.sdu.pos = s.sdu.pos := by
  rcases sduTick_cases s with ⟨_, e⟩ | ⟨_, e⟩ | ⟨_, _, e⟩ | ⟨_, _, e⟩ | ⟨_, _, _, e⟩ | ⟨_, _, _, e⟩
  case inr.inr.inr.inr.inr => rw [e] at h; cases h
  all_goals simp [e]

/-- The drive and the sequencer are the same in both states. -/
structure SameMotion (s t : State) : Prop where
  sdu : t.sdu = s.sdu
  ssm : t.ssm = s.ssm

/-- Of the bus phase the two units see nothing, or the work of a command. -/
theorem busPhase_motion {acc : Option BusAccess} {s b : State} (h : busPhase acc s = .next b) :
    SameMotion s b ∨ ∃ s' i u, SameMotion s s' ∧ CommandEffect s' i u ∧ SameMotion u b := by
  rcases busPhase_next h with ⟨_, rfl⟩ | ⟨a, _, _, rfl⟩ | ⟨a, v, _, _, _, rfl⟩ | ⟨a, v, _, _, hd⟩
  · exact .inl ⟨rfl, rfl⟩
  · exact .inl ⟨rfl, rfl⟩
  · rcases State.writeWord_cases a v (s.setReadData none) with ⟨r, _, e⟩ | e <;> rw [e]
    · exact .inl ⟨State.writeReg_sdu _ _ _, State.writeReg_ssm _ _ _⟩
    · exact .inl ⟨rfl, rfl⟩
  · rcases dispatchCommand_cases v (s.setReadData none) with ⟨i, _, e⟩ | ⟨_, _, e⟩
    · rcases exec_next (e.symm.trans hd) with ⟨c, rfl⟩ | ⟨c, u, he, rfl⟩
      · exact .inl ⟨rfl, rfl⟩
      · exact .inr ⟨(s.setReadData none).setLastcmd v, i, u, ⟨rfl, rfl⟩, he, ⟨rfl, rfl⟩⟩
    · cases e.symm.trans hd
      exact .inl ⟨rfl, rfl⟩

/-- What a command's work keeps of the two units, the phases from the bus phase on keep. -/
theorem step_keeps_of_atBusPhase {P : State → Prop} (hcongr : ∀ {s t}, SameMotion s t → P s → P t)
    (heffect : ∀ {s u i}, CommandEffect s i u → P s → P u) {s t : State} (hr : s.nextInput.rst = false)
    (h : step s = .next t) (hP : P s.atBusPhase) : P t := by
  obtain ⟨b, hb, rfl⟩ := step_next_noReset hr h
  have hafter : SameMotion b (afterBus s.nextInput.rx b) := ⟨afterBus_sdu _ _, afterBus_ssm _ _⟩
  refine hcongr hafter ?_
  rcases busPhase_motion hb with hs | ⟨s', i, u, hs, he, hu⟩
  · exact hcongr hs hP
  · exact hcongr hu (heffect he (hcongr hs hP))

end Sys2Proof.Machine

namespace Sys2Proof.Machine

/-! ## The position during a sweep (42_sweep_sequencer R333 item 5) -/

/-- POS is the position `pos0` before the sweep plus the accumulated steps. -/
def onSweep (pos0 : DWord) (s : State) : Prop :=
  s.sdu.pos = pos0 + s.ssm.sweepAcc * BitVec.ofNat 64 (Preset.unitsPerStep s.sdu.mscode)

section Position

variable {pos0 : DWord} {s t : State}

theorem posAccounted_of_active (hq : s.ssm.state ≠ .idle) : posAccounted pos0 s ↔ onSweep pos0 s := by
  simp [posAccounted, State.sweepActive, hq, onSweep]

theorem posAccounted_of_idle (hq : s.ssm.state = .idle) : posAccounted pos0 s ↔ s.sdu.pos = pos0 := by
  simp [posAccounted, State.sweepActive, hq]

theorem posAccounted_congr (hm : SameMotion s t) (h : posAccounted pos0 s) : posAccounted pos0 t := by
  rwa [posAccounted, State.sweepActive, hm.sdu, hm.ssm]

/-- Without a step to undo the sweep ends where it began; else the reset rotation is still to come. -/
theorem enterReturn_posAccounted (h : onSweep pos0 s) (c : SeqEnd) : posAccounted pos0 (s.enterReturn c) := by
  rcases s.enterReturn_cases c with ⟨hacc, e⟩ | ⟨_, e⟩ <;> rw [e]
  · rw [onSweep, hacc] at h
    exact (posAccounted_of_idle rfl).2 (by simpa using h)
  · exact (posAccounted_of_active (by simp)).2 h

theorem enterRingWait_posAccounted (h : onSweep pos0 s) : posAccounted pos0 s.enterRingWait :=
  (posAccounted_of_active (by simp)).2 h

/-- A completed CW turn moves POS by the steps that the SSM tick then adds to SWEEP_ACC. -/
theorem addSweep_onSweep (h : onSweep pos0 s) (hdone : (sduTick s).2 = true) (hcw : s.sdu.turnDir = .cw) :
    onSweep pos0 ((sduTick s).1.addSweep s.sdu.turnN) := by
  have f := sduTick_frame s
  rw [onSweep, State.addSweep_sdu, State.addSweep_ssm_sweepAcc, f.mscode, f.ssm, sduTick_pos_of_done hdone, hcw]
  rw [onSweep] at h
  rw [advancePos, h, BitVec.add_mul, BitVec.add_assoc]

/-- A completed CCW turn of SWEEP_ACC steps takes POS back to the start. -/
theorem sduTick_pos_of_returned (h : onSweep pos0 s) (hdone : (sduTick s).2 = true) (hccw : s.sdu.turnDir = .ccw)
    (hn : s.sdu.turnN = s.ssm.sweepAcc) : (sduTick s).1.sdu.pos = pos0 := by
  rw [sduTick_pos_of_done hdone, hccw, hn, h]
  exact BitVec.add_sub_cancel _ _

theorem sduTick_onSweep (h : onSweep pos0 s) (hrun : (sduTick s).2 = false) : onSweep pos0 (sduTick s).1 := by
  have f := sduTick_frame s
  rwa [onSweep, sduTick_pos_of_running hrun, f.mscode, f.ssm]

/-- What the SSM tick finds of the position after the SDU tick, `done` being TURN_COMPLETE: the account as it was, or
with a whole turn more on POS, the turn that the state of the sequencer stands for. -/
structure PosBetweenTicks (pos0 : DWord) (done : Bool) (s : State) : Prop where
  active : s.ssm.state ≠ .idle
  running : done = false → onSweep pos0 s
  waiting : s.ssm.state = .ringWait → done = false
  prerotated : s.ssm.state = .prerot → done = true → onSweep pos0 (s.addSweep (s.ssm.prerot.setWidth 64))
  advanced : s.ssm.state = .advance → done = true → onSweep pos0 (s.addSweep (s.ssm.spring.setWidth 64))
  returned : s.ssm.state = .returning → done = true → s.sdu.pos = pos0

theorem sduTick_posBetweenTicks (hq : SsmInv s) (hactive : s.ssm.state ≠ .idle) (h : onSweep pos0 s) :
    PosBetweenTicks pos0 (sduTick s).2 (sduTick s).1 := by
  have hssm := (sduTick_frame s).ssm
  constructor
  case active => rwa [hssm]
  case running => exact sduTick_onSweep h
  case waiting =>
    rw [hssm]
    exact fun hw => Bool.eq_false_iff.2 fun hdone => by simpa [hq.waiting hw] using (sduTick_done hdone).1
  case prerotated =>
    rw [hssm]
    intro hp hdone
    obtain ⟨hcw, hn, _⟩ := hq.prerotTurn hp
    exact hn ▸ addSweep_onSweep h hdone hcw
  case advanced =>
    rw [hssm]
    intro ha hdone
    obtain ⟨hcw, hn⟩ := hq.advanceTurn ha
    exact hn ▸ addSweep_onSweep h hdone hcw
  case returned =>
    rw [hssm]
    intro hr hdone
    obtain ⟨hccw, hn⟩ := hq.returnTurn hr
    exact sduTick_pos_of_returned h hdone hccw hn

theorem ssmTick_posAccounted {done : Bool} (h : PosBetweenTicks pos0 done s) :
    posAccounted pos0 (ssmTick done s) := by
  rcases ssmTick_cases done s with ⟨⟨_, hstay⟩, e⟩ | ⟨hq, hdone, _, e⟩ | ⟨hq, hdone, _, e⟩ |
    ⟨hq, hdone, _, e⟩ | ⟨hq, hdone, _, _, e⟩ | ⟨hq, hdone, _, _, e⟩ | ⟨hq, hdone, e⟩ | ⟨hq, _, e⟩ | ⟨hq, _, e⟩ <;>
    rw [e]
  · -- nothing completes
    exact (posAccounted_of_active h.active).2 (h.running (hstay.resolve_right h.active))
  · exact enterReturn_posAccounted (h.prerotated hq hdone) _
  · exact enterRingWait_posAccounted (h.prerotated hq hdone)
  · exact enterReturn_posAccounted (h.advanced hq hdone) _
  · exact enterReturn_posAccounted (h.advanced hq hdone) _
  · exact enterRingWait_posAccounted (h.advanced hq hdone)
  · -- the reset rotation completes
    exact (posAccounted_of_idle rfl).2 (h.returned hq hdone)
  · -- the ring timeout runs out
    exact enterReturn_posAccounted (s := s.countRto.recordTimeout) (h.running (h.waiting hq)) _
  · -- the ring timeout goes on
    exact (posAccounted_of_active h.active).2 (h.running (h.waiting hq))

/-- No command moves POS, and only SWEEP_START writes SWEEP_ACC. -/
theorem CommandEffect.posAccounted {u : State} {i : Instr} (he : CommandEffect s i u) (h : posAccounted pos0 s) :
    posAccounted pos0 u := by
  cases he with
  | setRes p hb =>
    have hidle := (State.busyNow_eq_false.1 hb).2
    rw [posAccounted_of_idle hidle] at h
    refine (posAccounted_of_idle ?_).2 h
    exact hidle
  | sweepStart_ring hb =>
    rw [posAccounted_of_idle (State.busyNow_eq_false.1 hb).2] at h
    exact enterRingWait_posAccounted (by simpa [onSweep] using h)
  | sweepStart_prerot hb =>
    rw [posAccounted_of_idle (State.busyNow_eq_false.1 hb).2] at h
    exact (posAccounted_of_active (by simp)).2 (by simpa [onSweep] using h)
  | ringDone hs =>
    rw [posAccounted_of_active (by simp [hs])] at h
    exact (posAccounted_of_active (by simp)).2 h
  | sweepCancel_return hs => exact enterReturn_posAccounted ((posAccounted_of_active (by simp [hs])).1 h) _
  | _ => exact h

end Position

/-- Settles O56: the ticks keep the account of the position, and so does every command. -/
theorem sweepReturnsToItsStart : Obligations.SweepReturnsToItsStart := by
  intro pos0 s t hinv hr hactive h hstep
  refine step_keeps_of_atBusPhase posAccounted_congr CommandEffect.posAccounted hr hstep ?_
  rw [posAccounted_of_active hactive] at h
  exact ssmTick_posAccounted (sduTick_posBetweenTicks (hinv.ssm.congr rfl rfl) hactive h)

end Sys2Proof.Machine

namespace Sys2Proof.Machine

/-! ## The account of the steps (42_sweep_sequencer R333 item 6) -/

/-- `a` advances are completed and counted. -/
structure AdvancesDone (a : Nat) (s : State) : Prop where
  sweepAcc : s.ssm.sweepAcc = sweepSteps a s
  ringIdx : s.ssm.ringIdx = BitVec.ofNat 32 a

section Steps

variable {s t : State} {a : Nat}

theorem stepsAccounted_of_idle (hq : s.ssm.state = .idle) : stepsAccounted s := by
  rw [stepsAccounted, hq]; trivial

theorem stepsAccounted_of_prerot (hq : s.ssm.state = .prerot) :
    stepsAccounted s ↔ s.ssm.sweepAcc = 0 ∧ s.ssm.ringIdx = 0 := by
  rw [stepsAccounted, hq]

theorem stepsAccounted_of_counted (hq : s.ssm.state = .ringWait ∨ s.ssm.state = .returning) :
    stepsAccounted s ↔ ∃ a, AdvancesDone a s := by
  have hiff : (∃ a, s.ssm.sweepAcc = sweepSteps a s ∧ s.ssm.ringIdx = BitVec.ofNat 32 a) ↔ ∃ a, AdvancesDone a s :=
    exists_congr fun a => ⟨fun ⟨h, h'⟩ => ⟨h, h'⟩, fun ⟨h, h'⟩ => ⟨h, h'⟩⟩
  rcases hq with hq | hq <;> rw [stepsAccounted, hq] <;> exact hiff

theorem stepsAccounted_of_advance (hq : s.ssm.state = .advance) :
    stepsAccounted s ↔ ∃ a, s.ssm.sweepAcc = sweepSteps a s ∧ s.ssm.ringIdx = BitVec.ofNat 32 (a + 1) := by
  rw [stepsAccounted, hq]

theorem stepsAccounted_congr (hq : t.ssm = s.ssm) (h : stepsAccounted s) : stepsAccounted t := by
  rw [stepsAccounted] at h ⊢
  simpa only [sweepSteps, hq] using h

theorem sweepSteps_zero (s : State) : sweepSteps 0 s = s.ssm.prerot.setWidth 64 := by
  simp [sweepSteps]

theorem sweepSteps_succ (a : Nat) (s : State) :
    sweepSteps (a + 1) s = sweepSteps a s + s.ssm.spring.setWidth 64 := by
  rw [sweepSteps, sweepSteps, BitVec.ofNat_add, BitVec.mul_add, BitVec.mul_one, BitVec.add_assoc]

theorem enterReturn_stepsAccounted (h : AdvancesDone a s) (c : SeqEnd) : stepsAccounted (s.enterReturn c) := by
  rcases s.enterReturn_cases c with ⟨_, e⟩ | ⟨_, e⟩ <;> rw [e]
  · exact stepsAccounted_of_idle rfl
  · exact (stepsAccounted_of_counted (.inr rfl)).2 ⟨a, h.sweepAcc, h.ringIdx⟩

theorem enterRingWait_stepsAccounted (h : AdvancesDone a s) : stepsAccounted s.enterRingWait :=
  (stepsAccounted_of_counted (.inl rfl)).2 ⟨a, h.sweepAcc, h.ringIdx⟩

/-- The pre-rotation completed, no advance is. -/
theorem addSweep_prerot_advancesDone (hq : s.ssm.state = .prerot) (h : stepsAccounted s) :
    AdvancesDone 0 (s.addSweep (s.ssm.prerot.setWidth 64)) := by
  obtain ⟨hacc, hidx⟩ := (stepsAccounted_of_prerot hq).1 h
  exact ⟨by simp [sweepSteps_zero, hacc], hidx⟩

/-- The advance that completes is one more. -/
theorem addSweep_spring_advancesDone (hq : s.ssm.state = .advance) (h : stepsAccounted s) :
    ∃ a, AdvancesDone a (s.addSweep (s.ssm.spring.setWidth 64)) := by
  obtain ⟨a, hacc, hidx⟩ := (stepsAccounted_of_advance hq).1 h
  exact ⟨a + 1, (congrArg (· + _) hacc).trans (sweepSteps_succ a s).symm, hidx⟩

theorem ssmTick_stepsAccounted (done : Bool) (h : stepsAccounted s) : stepsAccounted (ssmTick done s) := by
  rcases ssmTick_cases done s with ⟨_, e⟩ | ⟨hq, _, _, e⟩ | ⟨hq, _, _, e⟩ | ⟨hq, _, _, e⟩ |
    ⟨hq, _, _, _, e⟩ | ⟨hq, _, _, _, e⟩ | ⟨_, _, e⟩ | ⟨hq, _, e⟩ | ⟨hq, _, e⟩ <;> rw [e]
  · exact h
  · exact enterReturn_stepsAccounted (addSweep_prerot_advancesDone hq h) _
  · exact enterRingWait_stepsAccounted (addSweep_prerot_advancesDone hq h)
  · obtain ⟨a, ha⟩ := addSweep_spring_advancesDone hq h
    exact enterReturn_stepsAccounted ha _
  · obtain ⟨a, ha⟩ := addSweep_spring_advancesDone hq h
    exact enterReturn_stepsAccounted ha _
  · obtain ⟨a, ha⟩ := addSweep_spring_advancesDone hq h
    exact enterRingWait_stepsAccounted ha
  · exact stepsAccounted_of_idle rfl
  · -- the ring timeout runs out
    obtain ⟨a, hacc, hidx⟩ := (stepsAccounted_of_counted (.inl hq)).1 h
    exact enterReturn_stepsAccounted (s := s.countRto.recordTimeout) (a := a) ⟨hacc, hidx⟩ _
  · -- the ring timeout goes on
    obtain ⟨a, hacc, hidx⟩ := (stepsAccounted_of_counted (.inl hq)).1 h
    exact (stepsAccounted_of_counted (.inl hq)).2 ⟨a, hacc, hidx⟩

theorem ticks_stepsAccounted (h : stepsAccounted s) : stepsAccounted (ticks s) :=
  ssmTick_stepsAccounted _ (stepsAccounted_congr (sduTick_frame s).ssm h)

/-- Of the commands, the configuration ones need an idle sequencer, SWEEP_START clears the account, and RING_DONE counts
the ring whose advance it starts. -/
theorem CommandEffect.stepsAccounted {u : State} {i : Instr} (he : CommandEffect s i u) (h : stepsAccounted s) :
    stepsAccounted u := by
  cases he with
  | setRings hb | setPrerot hb | setRto hb => exact stepsAccounted_of_idle (State.busyNow_eq_false.1 hb).2
  | sweepStart_ring hb hr hp =>
    exact enterRingWait_stepsAccounted (a := 0) ⟨by simp [sweepSteps_zero, hp], rfl⟩
  | sweepStart_prerot hb hr hp => exact (stepsAccounted_of_prerot rfl).2 ⟨rfl, rfl⟩
  | ringDone hs =>
    obtain ⟨a, hacc, hidx⟩ := (stepsAccounted_of_counted (.inl hs)).1 h
    exact (stepsAccounted_of_advance rfl).2 ⟨a, hacc, by simp [hidx, BitVec.ofNat_add]⟩
  | sweepCancel_return hs =>
    obtain ⟨a, ha⟩ := (stepsAccounted_of_counted (.inl hs)).1 h
    exact enterReturn_stepsAccounted ha _
  | _ => exact h

theorem step_stepsAccounted (h : stepsAccounted s) (hstep : step s = .next t) : stepsAccounted t := by
  cases hr : s.nextInput.rst with
  | true =>
    cases (step_of_reset hr).symm.trans hstep
    exact stepsAccounted_of_idle rfl
  | false =>
    exact step_keeps_of_atBusPhase (fun hm => stepsAccounted_congr hm.ssm) CommandEffect.stepsAccounted hr hstep
      (ticks_stepsAccounted (s := { s with inputs := s.inputs.tail }) h)

end Steps

end Sys2Proof.Machine

namespace Sys2Proof.Machine

/-! ## The configuration of a sweep (42_sweep_sequencer R333 item 4) -/

/-- MSCODE, SPEED, CORR, RINGS, PREROT and RTO are the same in both states. -/
structure SameConfig (s t : State) : Prop where
  mscode : t.sdu.mscode = s.sdu.mscode
  speed : t.sdu.speed = s.sdu.speed
  corr : t.sdu.corr = s.sdu.corr
  rings : t.ssm.rings = s.ssm.rings
  prerot : t.ssm.prerot = s.ssm.prerot
  rto : t.ssm.rto = s.ssm.rto

section Configuration

variable {s t u : State}

theorem SameConfig.trans (h : SameConfig s t) (h' : SameConfig t u) : SameConfig s u :=
  ⟨h'.mscode.trans h.mscode, h'.speed.trans h.speed, h'.corr.trans h.corr, h'.rings.trans h.rings,
    h'.prerot.trans h.prerot, h'.rto.trans h.rto⟩

theorem SameMotion.sameConfig (h : SameMotion s t) : SameConfig s t := by
  constructor <;> simp [h.sdu, h.ssm]

theorem ssmTick_sweepConfig (done : Bool) (s : State) : (ssmTick done s).ssm.rings = s.ssm.rings ∧
    (ssmTick done s).ssm.prerot = s.ssm.prerot ∧ (ssmTick done s).ssm.rto = s.ssm.rto := by
  rcases ssmTick_cases done s with ⟨_, e⟩ | ⟨_, _, _, e⟩ | ⟨_, _, _, e⟩ | ⟨_, _, _, e⟩ |
    ⟨_, _, _, _, e⟩ | ⟨_, _, _, _, e⟩ | ⟨_, _, e⟩ | ⟨_, _, e⟩ | ⟨_, _, e⟩ <;> simp [e]

theorem atBusPhase_sameConfig (s : State) : SameConfig s s.atBusPhase := by
  have drive := atBusPhase_drive s
  obtain ⟨hrings, hprerot, hrto⟩ := ssmTick_sweepConfig (sduTick { s with inputs := s.inputs.tail }).2
    (sduTick { s with inputs := s.inputs.tail }).1
  rw [(sduTick_frame _).ssm] at hrings hprerot hrto
  exact ⟨drive.mscode, drive.speed, drive.corr, hrings, hprerot, hrto⟩

/-- A command that writes the configuration leaves the sequencer idle. -/
theorem CommandEffect.sameConfig {i : Instr} (he : CommandEffect s i u) :
    SameConfig s u ∨ u.ssm.state = .idle := by
  cases he with
  | setRes _ hb | setSpeed hb | setCorr hb | setRings hb | setPrerot hb | setRto hb =>
    exact .inr (State.busyNow_eq_false.1 hb).2
  | sweepCancel_return => exact .inl (by constructor <;> simp)
  | _ => exact .inl (by constructor <;> rfl)

end Configuration

/-- Settles O57: a step that changes the configuration ends with an idle sequencer; and the ticks and every command keep
the account of the steps. -/
theorem sweepKeepsConfigurationAndStepAccount : Obligations.SweepKeepsConfigurationAndStepAccount := by
  refine ⟨fun s t hr _ hstep hactive => ?_, fun s t _ h hstep => step_stepsAccounted h hstep⟩
  obtain ⟨b, hb, rfl⟩ := step_next_noReset hr hstep
  rw [afterBus_ssm] at hactive
  have hbus : SameConfig s.atBusPhase b := by
    rcases busPhase_motion hb with hs | ⟨s', i, u, hs, he, hu⟩
    · exact hs.sameConfig
    · exact hs.sameConfig.trans ((he.sameConfig.resolve_right (hu.ssm ▸ hactive)).trans hu.sameConfig)
  obtain ⟨h1, h2, h3, h4, h5, h6⟩ := (atBusPhase_sameConfig s).trans hbus
  rw [afterBus_sdu, afterBus_ssm]
  exact ⟨h1, h2, h3, h4, h5, h6⟩

end Sys2Proof.Machine

namespace Sys2Proof.Machine

/-! ## The sweep's commands (42_sweep_sequencer R320 to R326) -/

/-- Settles O43: the outcomes of the three case lemmas, told apart by BUSY_NOW and the range of ARG0. -/
theorem sweepConfigurationCommands : Obligations.SweepConfigurationCommands := by
  intro s
  have notBusy (hb : s.busyNow = false) : s.busyNow ≠ true := by simp [hb]
  refine ⟨decode_encode .setRings, decode_encode .setPrerot, decode_encode .setRto,
    fun hb => ⟨exec_of_busy rfl hb, exec_of_busy rfl hb, exec_of_busy rfl hb⟩,
    fun hb h0 => ?_, fun hb hfine => ?_, fun hb hlo hhi => ?_, fun hb => ⟨?_, ?_⟩⟩
  · rcases execSetRings_cases s with ⟨hb', _⟩ | ⟨_, _, h⟩ | ⟨_, hn, _, _⟩ | ⟨_, hn, _, _⟩
    · exact absurd hb' (notBusy hb)
    · exact h
    · exact absurd h0 hn
    · exact absurd h0 hn
  · rcases execSetRings_cases s with ⟨hb', _⟩ | ⟨_, h0, _⟩ | ⟨_, _, _, h⟩ | ⟨_, _, hle, _⟩
    · exact absurd hb' (notBusy hb)
    · omega
    · exact h
    · omega
  · rcases execSetRings_cases s with ⟨hb', _⟩ | ⟨_, h0, _⟩ | ⟨_, _, hfine, _⟩ | ⟨_, _, _, h⟩
    · exact absurd hb' (notBusy hb)
    · omega
    · omega
    · exact h
  · exact ((execSetPrerot_cases s).resolve_left fun h => notBusy hb h.1).2
  · exact ((execSetRto_cases s).resolve_left fun h => notBusy hb h.1).2

/-- Settles O44: `stepsPerRing` is the nearest integer, an even one at a tie. -/
theorem stepsPerRingIsNearest : Obligations.StepsPerRingIsNearest := by
  intro md rings hlo hhi
  obtain ⟨h1, hmax⟩ := stepsPerRing_range hlo hhi
  obtain ⟨hup, hdown⟩ := roundHalfEven_close (100 * md) rings hlo
  exact ⟨h1, hmax, hup, hdown, fun htie => roundHalfEven_even_of_tie hlo htie.symm⟩

/-- Settles O45: the outcomes of `execSweepStart_cases`, told apart by BUSY_NOW, RINGS and PREROT. -/
theorem sweepStartBeginsASweep : Obligations.SweepStartBeginsASweep := by
  intro s
  refine ⟨decode_encode .sweepStart, exec_of_busy rfl, fun hb hfine => ?_, fun hb hle hp => ?_,
    fun hb hle hp => ?_⟩ <;>
    rcases execSweepStart_cases s with ⟨hb', _⟩ | ⟨_, hfine', h⟩ | ⟨_, hle', hp', h⟩ | ⟨_, hle', hp', h⟩
  · exact absurd (hb'.symm.trans hb) (by decide)
  · exact h
  · omega
  · omega
  · exact absurd (hb'.symm.trans hb) (by decide)
  · omega
  · exact h
  · exact absurd hp hp'
  · exact absurd (hb'.symm.trans hb) (by decide)
  · omega
  · exact absurd hp' hp
  · exact h

/-- Settles O46: the outcomes of `execRingDone_cases`. -/
theorem ringDoneAdvancesOneRing : Obligations.RingDoneAdvancesOneRing := by
  intro s
  refine ⟨decode_encode .ringDone, fun hq => ?_, fun hq => ?_⟩
  · exact ((execRingDone_cases s).resolve_left fun h => hq h.1).2
  · exact ((execRingDone_cases s).resolve_right fun h => h.1 hq).2

/-- Settles O47: state by state of the sequencer. -/
theorem sweepCancelActsAtRingBoundary : Obligations.SweepCancelActsAtRingBoundary := by
  intro s
  refine ⟨decode_encode .sweepCancel, fun hq => ?_, fun hq => ?_, fun hq => ?_, fun hq => ?_⟩
  · rw [exec, execSweepCancel, hq]
  · rw [exec, execSweepCancel, hq]; rfl
  · rcases hq with hq | hq <;> rw [exec, execSweepCancel, hq] <;> rfl
  · rw [exec, execSweepCancel, hq]; rfl

end Sys2Proof.Machine

namespace Sys2Proof.Machine

/-! ## The SSM tick (42_sweep_sequencer R327 to R332) -/

section Tick

variable {s : State}

theorem enterReturn_of_zero (h : s.ssm.sweepAcc = 0) (c : SeqEnd) :
    s.enterReturn c = ((s.endSweep c).setSeqState .idle).pend .sweepDone := if_pos h

theorem enterReturn_of_ne_zero (h : s.ssm.sweepAcc ≠ 0) (c : SeqEnd) :
    s.enterReturn c = ((s.endSweep c).startTurn .ccw s.ssm.sweepAcc .seq).setSeqState .returning := if_neg h

theorem ssmTick_of_idle (hq : s.ssm.state = .idle) (done : Bool) : ssmTick done s = s := by
  simp [ssmTick, hq]

/-- Outside RING_WAIT the tick waits for TURN_COMPLETE. -/
theorem ssmTick_of_running (hq : s.ssm.state ≠ .ringWait) : ssmTick false s = s := by
  cases h : s.ssm.state with
  | ringWait => exact absurd h hq
  | idle | prerot | advance | returning => simp [ssmTick, h]

theorem ssmTick_of_prerot (hq : s.ssm.state = .prerot) : ssmTick true s = prerotDone s := by
  simp [ssmTick, hq]

theorem ssmTick_of_advance (hq : s.ssm.state = .advance) : ssmTick true s = advanceDone s := by
  simp [ssmTick, hq]

theorem ssmTick_of_returning (hq : s.ssm.state = .returning) :
    ssmTick true s = (s.setSeqState .idle).pend .sweepDone := by
  simp [ssmTick, hq]

theorem ssmTick_of_ringWait (hq : s.ssm.state = .ringWait) (done : Bool) : ssmTick done s = ringWaitTick s := by
  simp [ssmTick, hq]

end Tick

/-- Settles O48: state by state. -/
theorem ssmTickFollowsTheStateMachine : Obligations.SsmTickFollowsTheStateMachine := by
  intro s code
  refine ⟨rfl, fun h => enterReturn_of_ne_zero h code, fun h => enterReturn_of_zero h code,
    fun done hq => ssmTick_of_idle hq done, ssmTick_of_running, ?_, ?_, ssmTick_of_returning⟩
  · rintro hq _ rfl
    exact ssmTick_of_prerot hq
  · rintro hq _ rfl
    exact ssmTick_of_advance hq

end Sys2Proof.Machine

namespace Sys2Proof.Machine

/-! ## The ring timeout (42_sweep_sequencer R332, R334) -/

section Timeout

variable {s : State}

/-- RTO_CNT set to `k`, as it stands after `k` ticks of RING_WAIT (42_sweep_sequencer R332). -/
def State.withRtoCnt (k : Nat) (s : State) : State := { s with ssm := { s.ssm with rtoCnt := BitVec.ofNat 32 k } }

theorem rtoCount_ofNat {k : Nat} (hk : k + 1 < 2 ^ 32) : rtoCount (BitVec.ofNat 32 k) = BitVec.ofNat 32 (k + 1) := by
  have hne : BitVec.ofNat 32 k ≠ BitVec.allOnes 32 := by
    intro h
    have hk' := congrArg BitVec.toNat h
    rw [BitVec.toNat_ofNat, Nat.mod_eq_of_lt (by omega), BitVec.toNat_allOnes] at hk'
    omega
  rw [rtoCount, if_neg hne, BitVec.ofNat_add]; rfl

theorem countRto_withRtoCnt {k : Nat} (hk : k + 1 < 2 ^ 32) (s : State) :
    (s.withRtoCnt k).countRto = s.withRtoCnt (k + 1) := by
  rw [State.countRto, State.withRtoCnt, rtoCount_ofNat hk]; rfl

/-- Before tick RTO the tick only counts. -/
theorem ssmTick_counts (hq : s.ssm.state = .ringWait) {k : Nat} (hk : k + 1 < s.ssm.rto.toNat) (done : Bool) :
    ssmTick done (s.withRtoCnt k) = s.withRtoCnt (k + 1) := by
  have hfit := s.ssm.rto.isLt
  rw [ssmTick_of_ringWait (s := s.withRtoCnt k) hq, ringWaitTick, if_neg, countRto_withRtoCnt (by omega)]
  rintro ⟨_, hle⟩
  have hle : s.ssm.rto.toNat ≤ (rtoCount (BitVec.ofNat 32 k)).toNat := hle
  rw [rtoCount_ofNat (by omega), BitVec.toNat_ofNat, Nat.mod_eq_of_lt (by omega)] at hle
  omega

/-- Tick RTO is the timeout. -/
theorem ssmTick_times_out (hq : s.ssm.state = .ringWait) {k : Nat} (hk : k + 1 = s.ssm.rto.toNat) (done : Bool) :
    ssmTick done (s.withRtoCnt k) = (s.withRtoCnt (k + 1)).recordTimeout.enterReturn .timeout := by
  have hfit := s.ssm.rto.isLt
  rw [ssmTick_of_ringWait (s := s.withRtoCnt k) hq, ringWaitTick, if_pos, countRto_withRtoCnt (by omega)]
  refine ⟨?_, ?_⟩
  · show s.ssm.rto ≠ 0
    intro h0
    simp [h0] at hk
  · show s.ssm.rto.toNat ≤ (rtoCount (BitVec.ofNat 32 k)).toNat
    rw [rtoCount_ofNat (by omega), BitVec.toNat_ofNat, Nat.mod_eq_of_lt (by omega)]
    omega

theorem ssmTicks_count (hq : s.ssm.state = .ringWait) (hc : s.ssm.rtoCnt = 0) {k : Nat}
    (hk : k < s.ssm.rto.toNat) : (ssmTick false)^[k] s = s.withRtoCnt k := by
  induction k with
  | zero => exact congrArg (fun c => { s with ssm := { s.ssm with rtoCnt := c } }) hc
  | succ k ih => rw [Function.iterate_succ_apply', ih (by omega), ssmTick_counts hq hk]

theorem ssmTicks_time_out (hq : s.ssm.state = .ringWait) (hc : s.ssm.rtoCnt = 0) (hrto : s.ssm.rto ≠ 0) :
    (ssmTick false)^[s.ssm.rto.toNat] s =
      (s.withRtoCnt s.ssm.rto.toNat).recordTimeout.enterReturn .timeout := by
  obtain ⟨k, hk⟩ : ∃ k, s.ssm.rto.toNat = k + 1 :=
    Nat.exists_eq_succ_of_ne_zero fun h0 => hrto (BitVec.eq_of_toNat_eq h0)
  rw [hk, Function.iterate_succ_apply', ssmTicks_count hq hc (by omega), ssmTick_times_out hq hk.symm]

/-- Without a timeout RING_WAIT lasts for ever (70_reset_and_hazards R499). -/
theorem ssmTicks_wait (hq : s.ssm.state = .ringWait) (hrto : s.ssm.rto = 0) (k : Nat) :
    ((ssmTick false)^[k] s).ssm.state = .ringWait ∧ ((ssmTick false)^[k] s).ssm.rto = 0 := by
  induction k with
  | zero => exact ⟨hq, hrto⟩
  | succ k ih =>
    obtain ⟨hq', hrto'⟩ := ih
    rw [Function.iterate_succ_apply', ssmTick_of_ringWait hq', ringWaitTick, if_neg fun h => h.1 hrto']
    exact ⟨hq', hrto'⟩

end Timeout

/-- Settles O49: the ticks before tick RTO by `ssmTicks_count`, that tick by `ssmTicks_time_out`. -/
theorem ringTimeoutFiresAfterRtoTicks : Obligations.RingTimeoutFiresAfterRtoTicks := by
  rintro s _ hq hc rfl
  refine ⟨fun hrto => ?_, fun hrto k => (ssmTicks_wait hq hrto k).1⟩
  have herr : ((s.withRtoCnt s.ssm.rto.toNat).recordTimeout.enterReturn .timeout).host.err =
      s.host.err ||| 0b010 := State.enterReturn_host_err _ _
  have hcnt : BitVec.ofNat 32 s.ssm.rto.toNat = s.ssm.rto := by simp
  rw [ssmTicks_time_out hq hc hrto, herr]
  refine ⟨fun k hk => ssmTicks_count hq hc hk, rfl, fun hacc => ?_, fun hacc => ?_⟩
  · rw [enterReturn_of_ne_zero (s := (s.withRtoCnt s.ssm.rto.toNat).recordTimeout) hacc, State.withRtoCnt, hcnt]
    rfl
  · rw [enterReturn_of_zero (s := (s.withRtoCnt s.ssm.rto.toNat).recordTimeout) hacc, State.withRtoCnt, hcnt]
    have hor : s.host.irqPend ||| 0b0001000 ||| 0b0000010 = s.host.irqPend ||| 0b0001010 := BitVec.or_assoc _ _ _
    rw [← hor]
    rfl

end Sys2Proof.Machine

namespace Sys2Proof.Machine

/-! ## Angles that are multiples of 90 degrees (43_coordinate_transform R380, R381 condition 2) -/

section Quadrant

variable {a rho phi theta off : F64} {qp qt : Nat} {c : CtuComp}

theorem F64.toRat_eq_ninety_mul_iff (a : F64) (j : Int) : F64.toRat a = 90 * (j : ℚ) ↔ F64.scaled a = ninety * j := by
  rw [F64.toRat, div_eq_iff f64Unit_pos.ne', ninety, mul_right_comm]
  exact_mod_cast Iff.rfl

theorem ninety_pos : 0 < ninety := by
  have hu : 0 < f64Unit := by exact_mod_cast f64Unit_pos
  rw [ninety]
  omega

theorem quadrantOf_eq_some_iff {q : Nat} :
    quadrantOf a = some q ↔ ∃ j : Int, F64.toRat a = 90 * (j : ℚ) ∧ q = (j % 4).toNat := by
  simp only [F64.toRat_eq_ninety_mul_iff, quadrantOf]
  constructor
  · intro h
    split at h
    · rename_i hdvd
      exact ⟨_, (Int.mul_ediv_cancel' (Int.dvd_of_emod_eq_zero hdvd)).symm, (Option.some.inj h).symm⟩
    · cases h
  · rintro ⟨j, hj, rfl⟩
    rw [hj, if_pos (Int.mul_emod_right _ _), Int.mul_ediv_cancel_left _ ninety_pos.ne']

/-- A multiple of 90 degrees as a remainder and full turns. -/
theorem ninety_mul_eq_turns (j : Int) :
    (90 * (j : ℝ)) * Real.pi / 180 = ((j % 4 : Int) : ℝ) * (Real.pi / 2) + ((j / 4 : Int) : ℝ) * (2 * Real.pi) := by
  have hj : (j : ℝ) = ((j % 4 + 4 * (j / 4) : Int) : ℝ) := by rw [Int.emod_add_mul_ediv]
  rw [hj]
  push_cast
  ring

theorem emod_four_cases (j : Int) : j % 4 = 0 ∨ j % 4 = 1 ∨ j % 4 = 2 ∨ j % 4 = 3 := by omega

theorem sinD_ninety_mul (j : Int) : sinD (90 * j) = quadrantSin (j % 4).toNat := by
  rw [sinD, ninety_mul_eq_turns, Real.sin_add_int_mul_two_pi]
  rcases emod_four_cases j with h | h | h | h <;> rw [h]
  · simp [quadrantSin]
  · simp [quadrantSin]
  · simp [quadrantSin, mul_div_cancel₀]
  · rw [show ((3 : Int) : ℝ) * (Real.pi / 2) = Real.pi / 2 + Real.pi by push_cast; ring, Real.sin_add_pi]
    simp [quadrantSin]

theorem cosD_ninety_mul (j : Int) : cosD (90 * j) = quadrantCos (j % 4).toNat := by
  rw [cosD, ninety_mul_eq_turns, Real.cos_add_int_mul_two_pi]
  rcases emod_four_cases j with h | h | h | h <;> rw [h]
  · simp [quadrantCos]
  · simp [quadrantCos]
  · simp [quadrantCos, mul_div_cancel₀]
  · rw [show ((3 : Int) : ℝ) * (Real.pi / 2) = Real.pi / 2 + Real.pi by push_cast; ring, Real.cos_add_pi]
    simp [quadrantCos]

theorem sinD_of_quadrantOf {q : Nat} (h : quadrantOf a = some q) : sinD (F64.toRat a) = quadrantSin q := by
  obtain ⟨j, hj, rfl⟩ := quadrantOf_eq_some_iff.1 h
  rw [hj]
  exact_mod_cast sinD_ninety_mul j

theorem cosD_of_quadrantOf {q : Nat} (h : quadrantOf a = some q) : cosD (F64.toRat a) = quadrantCos q := by
  obtain ⟨j, hj, rfl⟩ := quadrantOf_eq_some_iff.1 h
  rw [hj]
  exact_mod_cast cosD_ninety_mul j

/-! ## The products of a component and their sum -/

/-- The products whose sum is a component, where PHI and THETA lie on quadrants qp and qt. -/
def quadrantProducts (rho off : F64) (qp qt : Nat) : CtuComp → List SignedProduct
  | .x => [signedProduct rho [quadrantSin qp, quadrantCos qt], signedProduct off [quadrantSin qt]]
  | .y => [signedProduct rho [quadrantSin qp, quadrantSin qt], signedProduct off [quadrantCos qt]]
  | .z => [signedProduct rho [quadrantCos qp]]

/-- The exact component, in units of 2^-1074. -/
def quadrantSum (rho off : F64) (qp qt : Nat) (c : CtuComp) : Int :=
  ((quadrantProducts rho off qp qt c).map (·.val)).sum

theorem quadrantSum_eq (rho off : F64) (qp qt : Nat) (c : CtuComp) :
    ((quadrantProducts rho off qp qt c).map (·.val)).sum = quadrantSum rho off qp qt c := rfl

theorem quadrantSum_x (rho off : F64) (qp qt : Nat) : quadrantSum rho off qp qt .x =
    F64.scaled rho * quadrantSin qp * quadrantCos qt + F64.scaled off * quadrantSin qt :=
  congrArg (_ + ·) (Int.add_zero _)

theorem quadrantSum_y (rho off : F64) (qp qt : Nat) : quadrantSum rho off qp qt .y =
    F64.scaled rho * quadrantSin qp * quadrantSin qt + F64.scaled off * quadrantCos qt :=
  congrArg (_ + ·) (Int.add_zero _)

theorem quadrantSum_z (rho off : F64) (qp qt : Nat) :
    quadrantSum rho off qp qt .z = F64.scaled rho * quadrantCos qp := Int.add_zero _

theorem ctuQuadrant_eq (rho phi theta off : F64) (qp qt : Nat) (c : CtuComp) :
    ctuQuadrant rho phi theta off qp qt c =
      exactSum (!F64.isZero rho && Config.ctuZeroIsNegative rho phi theta off c)
        (quadrantProducts rho off qp qt c) := by
  cases c <;> rfl

theorem ctuQuadrant_of_sum_ne_zero (h : quadrantSum rho off qp qt c ≠ 0) :
    ctuQuadrant rho phi theta off qp qt c = rne64 (quadrantSum rho off qp qt c) f64Unit := by
  rw [ctuQuadrant_eq]
  exact if_neg h

/-- A zero component gives +0.0; with RHO no zero and every product -0.0, it may give -0.0. -/
theorem ctuQuadrant_of_sum_eq_zero (h : quadrantSum rho off qp qt c = 0) :
    ctuQuadrant rho phi theta off qp qt c = 0 ∨
    (ctuQuadrant rho phi theta off qp qt c = F64.minusZero ∧ F64.isZero rho = false ∧
      ∀ t ∈ quadrantProducts rho off qp qt c, t.val = 0 ∧ t.neg = true) := by
  rw [ctuQuadrant_eq, exactSum, quadrantSum_eq, if_pos h]
  split
  · rename_i hminus
    simp only [Bool.and_eq_true, Bool.not_eq_true', List.all_eq_true, decide_eq_true_eq] at hminus
    obtain ⟨⟨hrho, _⟩, hall⟩ := hminus
    exact .inr ⟨rfl, hrho, hall⟩
  · exact .inl rfl

theorem isZero_of_ctuQuadrant (h : quadrantSum rho off qp qt c = 0) :
    F64.isZero (ctuQuadrant rho phi theta off qp qt c) = true := by
  obtain h | ⟨h, _⟩ := ctuQuadrant_of_sum_eq_zero (phi := phi) (theta := theta) h <;> rw [h] <;> decide

theorem scaled_of_isZero (h : F64.isZero a = true) : F64.scaled a = 0 := by
  have h0 := toRat_of_isZero a h
  rwa [F64.toRat, div_eq_zero_iff, or_iff_left f64Unit_pos.ne', Int.cast_eq_zero] at h0

/-- For RHO a zero the sum does not depend on the quadrant of PHI. -/
theorem quadrantSum_of_isZero (h : F64.isZero rho = true) (qp' : Nat) :
    quadrantSum rho off qp qt c = quadrantSum rho off qp' qt c := by
  cases c <;> simp [quadrantSum_x, quadrantSum_y, quadrantSum_z, scaled_of_isZero h]

/-- The sum of the products is the component of XF. -/
theorem xf_eq_quadrantSum (hp : quadrantOf phi = some qp) (ht : quadrantOf theta = some qt) :
    xf rho phi theta off c = ((quadrantSum rho off qp qt c / f64Unit : ℚ) : ℝ) := by
  cases c with
  | x =>
    rw [xf, sinD_of_quadrantOf hp, sinD_of_quadrantOf ht, cosD_of_quadrantOf ht, quadrantSum_x, F64.toRat, F64.toRat]
    push_cast
    ring
  | y =>
    rw [xf, sinD_of_quadrantOf hp, sinD_of_quadrantOf ht, cosD_of_quadrantOf ht, quadrantSum_y, F64.toRat, F64.toRat]
    push_cast
    ring
  | z =>
    rw [xf, cosD_of_quadrantOf hp, quadrantSum_z, F64.toRat]
    push_cast
    ring

end Quadrant

end Sys2Proof.Machine

namespace Sys2Proof.Machine

/-- Below the overflow bound RNE64 is finite and no pattern is nearer to the rounded value. -/
theorem rne64_finite_and_nearest (num : Int) {den : Nat} (hd : 0 < den)
    (h : |(num / den : ℚ)| < 2 ^ 1024 - 2 ^ 970) :
    F64.finite (rne64 num den) = true ∧
      ∀ b, |F64.toRat (rne64 num den) - num / den| ≤ |F64.toRat b - num / den| := by
  have hfin := (rne_lt_overflow_iff num hd).2 h
  exact ⟨(rne64_finite hd rfl rfl hfin).1, fun b => (rne64_nearest hd hfin b).1⟩

/-! ## P_CTU_FN meets the conditions of 43_coordinate_transform R381 -/

section CtuFn

variable {eps : ℚ} {rho phi theta off : F64} {c : CtuComp}

/-- The angle PHI as P_CTU_FN uses it: for RHO a zero +0.0 stands for every PHI (R381 condition 3). -/
def ctuPhi (rho phi : F64) : F64 := if F64.isZero rho then 0 else phi

theorem ctuPhi_of_isZero (h : F64.isZero rho = true) (phi : F64) : ctuPhi rho phi = 0 := if_pos h

theorem ctuPhi_of_not_isZero (h : F64.isZero rho = false) (phi : F64) : ctuPhi rho phi = phi :=
  if_neg (Bool.eq_false_iff.1 h)

theorem quadrantOf_zero : quadrantOf 0 = some 0 :=
  quadrantOf_eq_some_iff.2 ⟨0, by rw [toRat_of_isZero 0 (by decide)]; simp, rfl⟩

theorem ctuFn_of_quadrants {qp qt : Nat} (hp : quadrantOf (ctuPhi rho phi) = some qp)
    (ht : quadrantOf theta = some qt) :
    ctuFn eps rho phi theta off c = ctuQuadrant rho (ctuPhi rho phi) theta off qp qt c := by
  rw [ctuPhi] at hp
  simp only [ctuFn, hp, ht, ctuPhi]

/-- P_CTU_FN gives the exact sum on quadrant angles, and the free value elsewhere. -/
theorem ctuFn_cases (eps : ℚ) (rho phi theta off : F64) (c : CtuComp) :
    (∃ qp qt, quadrantOf (ctuPhi rho phi) = some qp ∧ quadrantOf theta = some qt ∧
      ctuFn eps rho phi theta off c = ctuQuadrant rho (ctuPhi rho phi) theta off qp qt c) ∨
    ctuFn eps rho phi theta off c = ctuGeneral eps rho (ctuPhi rho phi) theta off c := by
  cases hp : quadrantOf (ctuPhi rho phi) with
  | none =>
    rw [ctuPhi] at hp ⊢
    exact .inr (by simp only [ctuFn, hp])
  | some qp =>
    cases ht : quadrantOf theta with
    | none =>
      rw [ctuPhi] at hp ⊢
      exact .inr (by simp only [ctuFn, hp, ht])
    | some qt => exact .inl ⟨qp, qt, rfl, rfl, ctuFn_of_quadrants hp ht⟩

theorem xf_ctuPhi (rho phi theta off : F64) (c : CtuComp) :
    xf rho (ctuPhi rho phi) theta off c = xf rho phi theta off c := by
  cases h : F64.isZero rho with
  | true => cases c <;> simp [xf, toRat_of_isZero rho h]
  | false => rw [ctuPhi_of_not_isZero h]

/-- The conditions on a result do not depend on PHI where RHO is a zero. -/
theorem CtuAdmits.of_ctuPhi {r : F64} (h : CtuAdmits eps rho (ctuPhi rho phi) theta off c r) :
    CtuAdmits eps rho phi theta off c r := by
  obtain ⟨hfin, hacc, hnear, hzero⟩ := h
  simp only [ctuError, xf_ctuPhi] at hacc hnear
  exact ⟨hfin, hacc, hnear, hzero⟩

/-- A finite pattern nearest to XF meets the conditions, whatever P_CTU_EPS is. -/
theorem CtuAdmits.of_nearest {r : F64}
    (hn : ctuInRange rho off → F64.finite r = true ∧
      ∀ b, F64.finite b = true → ctuError rho phi theta off c r ≤ ctuError rho phi theta off c b)
    (hz : F64.isZero rho = true → c = .z → F64.isZero r = true) : CtuAdmits eps rho phi theta off c r where
  finite hr := (hn hr).1
  accurate := fun hr ⟨b, hb, hle⟩ => ((hn hr).2 b hb).trans hle
  nearest hr _ := (hn hr).2
  zero := hz

/-- In range the exact component lies below the overflow bound of RNE64. -/
theorem abs_quadrantSum_lt {qp qt : Nat} (hr : ctuInRange rho off) (hp : quadrantOf phi = some qp)
    (ht : quadrantOf theta = some qt) :
    |(quadrantSum rho off qp qt c / f64Unit : ℚ)| < 2 ^ 1024 - 2 ^ 970 := by
  have hx := xf_bounded rho phi theta off c
  rw [xf_eq_quadrantSum hp ht] at hx
  have hq : |(quadrantSum rho off qp qt c / f64Unit : ℚ)| ≤ |F64.toRat rho| + |F64.toRat off| := by
    exact_mod_cast hx
  calc _ ≤ (2 ^ 64 + 2 ^ 64 : ℚ) := hq.trans (add_le_add hr.1 hr.2)
    _ < 2 ^ 1024 - 2 ^ 970 := by
      have h66 : (2 : ℚ) ^ 66 ≤ 2 ^ 970 := pow_le_pow_right₀ one_le_two (by norm_num)
      have h1024 : (2 : ℚ) ^ 1024 = 2 ^ 54 * 2 ^ 970 := by rw [← pow_add]
      rw [h1024]
      generalize (2 : ℚ) ^ 970 = P at h66 ⊢
      linarith

/-- On quadrant angles the result is a pattern nearest to XF. -/
theorem ctuQuadrant_nearest {qp qt : Nat} (hr : ctuInRange rho off) (hp : quadrantOf phi = some qp)
    (ht : quadrantOf theta = some qt) :
    F64.finite (ctuQuadrant rho phi theta off qp qt c) = true ∧
      ∀ b, F64.finite b = true → ctuError rho phi theta off c (ctuQuadrant rho phi theta off qp qt c) ≤
        ctuError rho phi theta off c b := by
  simp only [ctuError, xf_eq_quadrantSum hp ht]
  by_cases h0 : quadrantSum rho off qp qt c = 0
  · refine ⟨?_, fun b _ => ?_⟩
    · obtain h | ⟨h, _⟩ := ctuQuadrant_of_sum_eq_zero (phi := phi) (theta := theta) h0 <;> rw [h] <;> decide
    · rw [toRat_of_isZero _ (isZero_of_ctuQuadrant h0), h0, Int.cast_zero, zero_div, sub_self, abs_zero]
      exact abs_nonneg _
  · rw [ctuQuadrant_of_sum_ne_zero h0]
    obtain ⟨hfin, hnear⟩ := rne64_finite_and_nearest (quadrantSum rho off qp qt c) (den := f64Unit)
      (by exact_mod_cast f64Unit_pos) (abs_quadrantSum_lt hr hp ht)
    exact ⟨hfin, fun b _ => by exact_mod_cast hnear b⟩

/-- Every result of P_CTU_FN meets conditions 1 and 3 of R381, on quadrant angles as elsewhere. -/
theorem ctuFn_admits (eps : ℚ) (rho phi theta off : F64) (c : CtuComp) :
    CtuAdmits eps rho phi theta off c (ctuFn eps rho phi theta off c) := by
  refine CtuAdmits.of_ctuPhi ?_
  rcases ctuFn_cases eps rho phi theta off c with ⟨qp, qt, hp, ht, h⟩ | h <;> rw [h]
  · refine CtuAdmits.of_nearest (fun hr => ctuQuadrant_nearest hr hp ht) ?_
    rintro hz rfl
    exact isZero_of_ctuQuadrant (by rw [quadrantSum_z, scaled_of_isZero hz, Int.zero_mul])
  · exact ctuGeneral_admits eps rho (ctuPhi rho phi) theta off c

/-- For RHO a zero the results do not depend on PHI (R381 condition 3). -/
theorem ctuFn_phi_of_isZero (h : F64.isZero rho = true) (phi phi' : F64) :
    ctuFn eps rho phi theta off c = ctuFn eps rho phi' theta off c := by
  simp only [ctuFn, if_pos h]

/-- On quadrant angles P_CTU_FN is the rounding of the exact sum, a zero sum giving -0.0 only where every product is
-0.0 (R381 condition 2). -/
theorem ctuFn_quadrant {qp qt : Nat} (hp : quadrantOf phi = some qp) (ht : quadrantOf theta = some qt) :
    (quadrantSum rho off qp qt c ≠ 0 →
      ctuFn eps rho phi theta off c = rne64 (quadrantSum rho off qp qt c) f64Unit) ∧
    (quadrantSum rho off qp qt c = 0 → ctuFn eps rho phi theta off c = 0 ∨
      (ctuFn eps rho phi theta off c = F64.minusZero ∧
        ∀ t ∈ quadrantProducts rho off qp qt c, t.val = 0 ∧ t.neg = true)) := by
  cases hz : F64.isZero rho with
  | false =>
    rw [ctuFn_of_quadrants (by rwa [ctuPhi_of_not_isZero hz]) ht]
    exact ⟨ctuQuadrant_of_sum_ne_zero, fun h => (ctuQuadrant_of_sum_eq_zero h).imp id (And.imp_right And.right)⟩
  | true =>
    rw [ctuFn_of_quadrants (by rw [ctuPhi_of_isZero hz, quadrantOf_zero]) ht, quadrantSum_of_isZero hz 0]
    refine ⟨ctuQuadrant_of_sum_ne_zero, fun h => ?_⟩
    obtain h | ⟨_, hz', _⟩ := ctuQuadrant_of_sum_eq_zero (phi := ctuPhi rho phi) (theta := theta) h
    · exact .inl h
    · rw [hz] at hz'
      cases hz'

end CtuFn

/-- Settles O59: conditions 2 and 3 by `ctuFn_quadrant` and `ctuFn_phi_of_isZero`, the zero of z by
`ctuFn_admits`. -/
theorem ctuMeetsItsExactnessConditions : Obligations.CtuMeetsItsExactnessConditions := by
  refine ⟨?_, fun eps rho phi phi' theta off c hz => ⟨ctuFn_phi_of_isZero hz phi phi',
    (ctuFn_admits eps rho phi theta off .z).zero hz rfl⟩⟩
  rintro eps rho phi theta off j k sj cj sk ck hj hk rfl rfl rfl rfl c products v hproducts rfl
  have hmap : products = (quadrantProducts rho off (j % 4).toNat (k % 4).toNat c).map fun t => (t.val, t.neg) := by
    cases c <;> exact hproducts
  have hv : (products.map Prod.fst).sum = quadrantSum rho off (j % 4).toNat (k % 4).toNat c := by
    rw [hmap, List.map_map]
    rfl
  obtain ⟨hne, h0⟩ := ctuFn_quadrant (eps := eps) (rho := rho) (off := off) (c := c)
    (quadrantOf_eq_some_iff.2 ⟨j, hj, rfl⟩) (quadrantOf_eq_some_iff.2 ⟨k, hk, rfl⟩)
  rw [hv, hmap, List.forall_mem_map]
  exact ⟨hne, h0⟩

/-- Settles O60: the results meet the conditions of R381 (`ctuFn_admits`), and these give the bound
(`CtuAdmits.within`). -/
theorem ctuIsAccurateInRange : Obligations.CtuIsAccurateInRange := by
  rintro eps rho phi theta off r c p t m x - - - - hrho hoff rfl rfl rfl hx rfl
  have hx : x = xf rho phi theta off c := by cases c <;> exact hx
  have hbound : (eps : ℝ) * (|(F64.toRat rho : ℝ)| + |(F64.toRat off : ℝ)|) = (ctuBound eps rho off : ℚ) := by
    rw [ctuBound]
    push_cast
    rfl
  have hadm := ctuFn_admits eps rho phi theta off c
  have hr : ctuInRange rho off := ⟨hrho, hoff⟩
  rw [hbound, hx]
  refine ⟨hadm.finite hr, fun heps hm => hadm.within hr heps ?_, hadm.accurate hr, hadm.nearest hr⟩
  refine hm.imp (fun h0 => ?_) (fun hle => (Rat.cast_le (K := ℝ)).1 ?_)
  · rw [h0, mul_zero] at hbound
    exact_mod_cast hbound.symm
  · rwa [Rat.cast_div, Rat.cast_one, Rat.cast_pow, Rat.cast_ofNat]

/-! ## CTU_XFORM (43_coordinate_transform R382) -/

theorem ctuOperandsFinite_iff (s : State) : s.ctuOperandsFinite = true ↔
    F64.finite s.ctu.rho = true ∧ F64.finite s.ctu.phi = true ∧ F64.finite s.ctu.theta = true ∧
      F64.finite s.ctu.offset = true := by
  simp only [State.ctuOperandsFinite, Bool.and_eq_true, and_assoc]

/-- Settles O58: of the two outcomes of `execCtuXform_cases` the operands admit one. -/
theorem ctuXformWritesItsResults : Obligations.CtuXformWritesItsResults := by
  intro s
  rw [← ctuOperandsFinite_iff]
  refine ⟨decode_encode .ctuXform, fun hnot => ?_, fun hrho hphi htheta hoff => ?_⟩
  · obtain ⟨h, _⟩ | ⟨_, h⟩ := execCtuXform_cases s
    · exact absurd h hnot
    · exact h
  · have hfin := (ctuOperandsFinite_iff s).2 ⟨hrho, hphi, htheta, hoff⟩
    obtain ⟨_, h⟩ | ⟨h, _⟩ := execCtuXform_cases s
    · exact h
    · exact absurd hfin (Bool.eq_false_iff.1 h)

end Sys2Proof.Machine

namespace Sys2Proof.Machine

/-! ## Command words and what their dispatch does (44_general R410, R411) -/

/-- The codes of the commands are those that 30_encoding R157 calls legal. -/
theorem encode_is_legal (i : Instr) : (encode i).toNat / 256 = 0 ∧
    (encode i).toNat % 256 ∈ ([0x00, 0x10, 0x11, 0x20, 0x21, 0x22, 0x23, 0x30, 0x31, 0x32, 0x33, 0x34, 0x35, 0x40] :
      List Nat) := by
  cases i <;> decide

/-- Settles O3: a word that decodes is a command's encoding and so legal; every other word is rejected, and the
rejection writes just its record. -/
theorem illegalWordIsRejectedWithoutEffect : Obligations.IllegalWordIsRejectedWithoutEffect := by
  intro v s hillegal
  rcases dispatchCommand_cases v s with ⟨i, hdec, _⟩ | ⟨_, _, hreject⟩
  · obtain ⟨hmbz, hopc⟩ := encode_is_legal i
    rw [eq_encode_of_decode hdec] at hillegal
    exact absurd hillegal (not_or.2 ⟨not_not.2 hmbz, not_not.2 hopc⟩)
  · exact hreject

/-- The dispatch of a command's own word runs the command (30_encoding R152). -/
theorem dispatchCommand_encode (i : Instr) (s : State) :
    dispatchCommand (encode i) s = exec i (s.setLastcmd (encode i)) := by
  rw [dispatchCommand, decode_encode]

/-- Settles O20: NOP only completes, and word 0 is NOP's. -/
theorem nopReportsSuccess : Obligations.NopReportsSuccess :=
  fun s => ⟨execNop_eq s, (dispatchCommand_encode .nop s).trans (execNop_eq _)⟩

/-! ## Register writes (44_general R413 to R418) -/

/-- A write at the address of a register other than CMD is that register's write. -/
theorem busPhase_writeReg {r : Reg} {a : Addr} (ha : a.toNat = Reg.addr r) (hr : r ≠ .cmd) (v : Word) (s : State) :
    busPhase (some (.write a 4 v)) s = .next ((s.setReadData none).writeReg r v) := by
  have haligned : a.toNat % 4 = 0 := ha ▸ (Reg.addr_aligned r).2
  have hcmd : a.toNat ≠ Reg.addr .cmd := fun h => hr (Reg.addr_injective (ha.symm.trans h))
  rw [busPhase_write haligned hcmd, State.writeWord, ha, regAt_addr]

theorem setLo32_eq (v : DWord) (w : Word) : setLo32 v w = v.extractLsb' 32 32 ++ w := rfl

theorem setHi32_eq (v : DWord) (w : Word) : setHi32 v w = w ++ v.extractLsb' 0 32 := by rw [setHi32, lo32_eq]

/-- A read-only register ignores the write (44_general R413). -/
theorem State.writeReg_of_readOnly {r : Reg} (hr : Reg.hostWrites r = false) (v : Word) (s : State) :
    s.writeReg r v = s := by
  cases r with
  | cmd | arg0 | arg1 | err | irqEn | irqPend | swphase | pktbufW | rhoLo | rhoHi | phiLo | phiHi | thetaLo | thetaHi
  | offsetLo | offsetHi => cases hr
  | _ => rfl

/-- Settles O11: each address is its register's, whose write stores the word, or replaces the addressed half. -/
theorem operandWritesStoreWholeWords : Obligations.OperandWritesStoreWholeWords := by
  intro s v
  simp only [← setLo32_eq, ← setHi32_eq]
  exact ⟨busPhase_writeReg (r := .arg0) rfl nofun v s, busPhase_writeReg (r := .arg1) rfl nofun v s,
    busPhase_writeReg (r := .rhoLo) rfl nofun v s, busPhase_writeReg (r := .rhoHi) rfl nofun v s,
    busPhase_writeReg (r := .phiLo) rfl nofun v s, busPhase_writeReg (r := .phiHi) rfl nofun v s,
    busPhase_writeReg (r := .thetaLo) rfl nofun v s, busPhase_writeReg (r := .thetaHi) rfl nofun v s,
    busPhase_writeReg (r := .offsetLo) rfl nofun v s, busPhase_writeReg (r := .offsetHi) rfl nofun v s⟩

/-- Settles O12: ERR and SWPHASE take the low bits of the word, a read-only register nothing. -/
theorem errSwphaseAndReadOnlyWrites : Obligations.ErrSwphaseAndReadOnlyWrites := by
  intro s v
  rw [← BitVec.setWidth_eq_extractLsb' (by decide : 3 ≤ 32)]
  refine ⟨busPhase_writeReg (r := .err) rfl nofun v s, busPhase_writeReg (r := .swphase) rfl nofun v s,
    fun r a hr ha => ?_⟩
  have hcmd : r ≠ .cmd := by rintro rfl; cases hr
  rw [busPhase_writeReg ha hcmd, State.writeReg_of_readOnly hr]
  rfl

/-! ## IRQ_PEND after the bus phase (60_exceptions R445) -/

theorem IrqSource.getLsbD_rxReady (k : Nat) : (IrqSource.bit .rxReady).getLsbD k = decide (k = 4) := by
  rw [show IrqSource.bit .rxReady = BitVec.twoPow 7 4 by decide, BitVec.getLsbD_twoPow]
  simp [eq_comm]

theorem IrqSource.getLsbD_rxOverflow (k : Nat) : (IrqSource.bit .rxOverflow).getLsbD k = decide (k = 5) := by
  rw [show IrqSource.bit .rxOverflow = BitVec.twoPow 7 5 by decide, BitVec.getLsbD_twoPow]
  simp [eq_comm]

/-- Of IRQ_PEND the RX phase sets RX_OVERFLOW only, when it drops a byte (40_packet_validator R200). -/
theorem rxPhase_irqPend_getLsbD (rx : Option Byte) (s : State) (k : Nat) :
    (rxPhase rx s).host.irqPend.getLsbD k = (s.host.irqPend.getLsbD k ||
      (decide (k = 5) && (rx.isSome && decide (s.params.rxqDepth ≤ s.pvu.rxq.length)))) := by
  rcases rxPhase_cases rx s with ⟨rfl, e⟩ | ⟨b, rfl, hroom, e⟩ | ⟨b, rfl, hfull, e⟩ <;> rw [e]
  · simp
  · simp [hroom]
  · simp [hfull, IrqSource.getLsbD_rxOverflow]

/-- Of IRQ_PEND the level phase sets RX_READY only, while RXQ holds 47 bytes. -/
theorem levelPhase_irqPend_getLsbD (s : State) (k : Nat) :
    (levelPhase s).host.irqPend.getLsbD k =
      (s.host.irqPend.getLsbD k || (decide (k = 4) && decide (47 ≤ s.pvu.rxq.length))) := by
  rcases levelPhase_cases s with ⟨hready, e⟩ | ⟨hshort, e⟩ <;> rw [e]
  · simp [latchLines, IrqSource.getLsbD_rxReady, show 47 ≤ s.pvu.rxq.length from hready]
  · simp [latchLines, show s.pvu.rxq.length < 47 from hshort]

/-- The phases after the bus phase set RX_READY and RX_OVERFLOW in IRQ_PEND and leave its other bits. -/
theorem afterBus_irqPend_getLsbD (rx : Option Byte) (s : State) (k : Nat) :
    (afterBus rx s).host.irqPend.getLsbD k = (s.host.irqPend.getLsbD k ||
      (decide (k = 5) && (rx.isSome && decide (s.params.rxqDepth ≤ s.pvu.rxq.length))) ||
      (decide (k = 4) && decide (47 ≤ (afterBus rx s).pvu.rxq.length))) := by
  rw [afterBus, levelPhase_irqPend_getLsbD, rxPhase_irqPend_getLsbD, levelPhase_pvu]

/-- A write of IRQ_PEND clears the bits written as ones (44_general R417). -/
theorem State.writeReg_irqPend_getLsbD (v : Word) (s : State) {k : Nat} (hk : k < 7) :
    (s.writeReg .irqPend v).host.irqPend.getLsbD k = (s.host.irqPend.getLsbD k && !v.getLsbD k) := by
  simp [State.writeReg, hk]

/-- The cycle of a write of IRQ_PEND: the bits written as ones are cleared after the ticks, then the RX phase and the
level phase set theirs. -/
theorem step_write_irqPend (s : State) (v : Word) (rx : Option Byte) :
    ∃ t, step (s.withNextInput ⟨false, some (.write 0x020 4 v), rx⟩) = .next t ∧
      ∀ k, k < 7 → t.host.irqPend.getLsbD k = ((s.atBusPhase.host.irqPend.getLsbD k && !v.getLsbD k) ||
        (decide (k = 5) && (rx.isSome && decide (s.params.rxqDepth ≤ s.pvu.rxq.length))) ||
        (decide (k = 4) && decide (47 ≤ t.pvu.rxq.length))) := by
  obtain ⟨hpvu, hparams⟩ := s.atBusPhase_pvu_params
  refine ⟨_, step_withNextInput rx (busPhase_writeReg (r := .irqPend) rfl nofun v _), fun k hk => ?_⟩
  rw [afterBus_irqPend_getLsbD, State.writeReg_irqPend_getLsbD v _ hk, ← hpvu, ← hparams]
  rfl

/-- The cycle of a write of IRQ_EN: the register takes bits 6:0, and no later phase changes it (44_general R416). -/
theorem step_write_irqEn (s : State) (v : Word) (rx : Option Byte) :
    ∃ t, step (s.withNextInput ⟨false, some (.write 0x01C 4 v), rx⟩) = .next t ∧
      t.host.irqEn = v.extractLsb' 0 7 := by
  refine ⟨_, step_withNextInput rx (busPhase_writeReg (r := .irqEn) rfl nofun v _), ?_⟩
  rw [(HostQuiet.afterBus rx _).irqEn, ← BitVec.setWidth_eq_extractLsb' (by decide)]
  rfl

/-- Settles O13: the IRQ line follows IRQ_EN as after every cycle; IRQ_PEND is read off bit by bit. -/
theorem irqWritesMaskAndClear : Obligations.IrqWritesMaskAndClear := by
  intro s v rx
  constructor
  · obtain ⟨t, hstep, hen⟩ := step_write_irqEn s v rx
    obtain ⟨_, _, _, hirq, _⟩ := linesFollowTheStateEveryCycle _ t rfl hstep
    refine ⟨t, hstep, hen, hirq.trans (exists_congr fun k => and_congr_right fun hk => ?_)⟩
    simp [hen, hk]
  · obtain ⟨t, hstep, hpend⟩ := step_write_irqPend s v rx
    refine ⟨t, hstep, fun k hk h4 h5 => ?_, ?_, ?_⟩
    · simpa [h4, h5] using hpend k hk
    · simpa using hpend 4 (by decide)
    · simpa using hpend 5 (by decide)

end Sys2Proof.Machine

namespace Sys2Proof.Machine

/-! ## How a command ends (60_exceptions R440 to R443)

`exec_ending` refines `exec_next`: a rejection comes with its cause, a completion with a code that is no rejection. -/

theorem Preset.lt_of_ofCode_eq_none {n : Nat} (h : Preset.ofCode n = none) : 4 < n := by
  by_contra hle
  obtain ⟨p, _, hp⟩ := Preset.exists_ofCode (not_lt.1 hle)
  exact Option.some_ne_none p (hp.symm.trans h)

/-- The causes of the rejections that a command can raise, one constructor per command and cause of a row of
60_exceptions R443; ILLEGAL_COMMAND is the dispatch's own. -/
inductive RejectionCause (s : State) : Instr → ResultCode → Prop
  | busy {i : Instr} (hi : Instr.checksBusy i = true) (hb : s.busyNow = true) : RejectionCause s i .busy
  | invalidResolution (h : 4 < s.host.arg0.toNat) : RejectionCause s .setRes .invalidResolution
  | invalidSpeed (h : s.host.arg0.toNat = 0 ∨ 4500 < s.host.arg0.toNat) : RejectionCause s .setSpeed .invalidSpeed
  | invalidCorr (h : ¬(F64.finite s.argF64 = true ∧ 0 < F64.toRat s.argF64)) :
      RejectionCause s .setCorr .invalidCorr
  | stepsTooSmall (h : s.host.arg0.toNat = 0) : RejectionCause s .turn .stepsTooSmall
  | invalidRings (h : s.host.arg0.toNat = 0) : RejectionCause s .setRings .invalidRings
  | setRings_tooFine (h : 100 * Preset.md s.sdu.mscode < s.host.arg0.toNat) :
      RejectionCause s .setRings .resolutionTooFine
  | sweepStart_tooFine (h : 100 * Preset.md s.sdu.mscode < s.ssm.rings.toNat) :
      RejectionCause s .sweepStart .resolutionTooFine
  | notInRingWait (h : s.ssm.state ≠ .ringWait) : RejectionCause s .ringDone .notInRingWait
  | noSweep (h : s.ssm.state = .idle) : RejectionCause s .sweepCancel .noSweep
  | ctuNonfinite (h : s.ctuOperandsFinite = false) : RejectionCause s .ctuXform .ctuNonfinite

theorem RejectionCause.isRejection {s : State} {i : Instr} {c : ResultCode} (h : RejectionCause s i c) :
    c.isRejection = true := by
  cases h <;> rfl

/-- Packet errors are completions (60_exceptions R442). -/
theorem PktVerdict.result_isRejection (v : PktVerdict) : v.result.isRejection = false := by cases v <;> rfl

/-- The two ways a command can end: from `s`, the command leads to the state of the third argument. -/
inductive CommandEnding (s : State) (i : Instr) : State → Prop
  | rejected {c : ResultCode} (hc : RejectionCause s i c) : CommandEnding s i (s.reject c)
  | completed {c : ResultCode} {u : State} (he : CommandEffect s i u) (hc : c.isRejection = false) :
      CommandEnding s i (u.complete c)

theorem exec_ending {i : Instr} {s t : State} (h : exec i s = .next t) : CommandEnding s i t := by
  cases i with
  | nop =>
    cases (execNop_eq s).symm.trans h
    exact .completed .nop rfl
  | pktRead =>
    rcases execPktRead_cases s with ⟨hv, e⟩ | ⟨hv, e⟩ <;> cases e.symm.trans h
    · exact .completed (.pktRead_accept hv) rfl
    · exact .completed (.pktRead_discard hv) (PktVerdict.result_isRejection _)
  | pktCheck =>
    cases (execPktCheck_eq s).symm.trans h
    exact .completed .pktCheck (PktVerdict.result_isRejection _)
  | setRes =>
    rcases execSetRes_cases s with ⟨hb, e⟩ | ⟨_, hp, e⟩ | ⟨p, hb, hp, e⟩ <;> cases e.symm.trans h
    · exact .rejected (.busy rfl hb)
    · exact .rejected (.invalidResolution (Preset.lt_of_ofCode_eq_none hp))
    · exact .completed (.setRes p hb hp) rfl
  | setSpeed =>
    rcases execSetSpeed_cases s with ⟨hb, e⟩ | ⟨_, hr, e⟩ | ⟨hb, hlo, hhi, e⟩ <;> cases e.symm.trans h
    · exact .rejected (.busy rfl hb)
    · exact .rejected (.invalidSpeed hr)
    · exact .completed (.setSpeed hb hlo hhi) rfl
  | setCorr =>
    rcases execSetCorr_cases s with ⟨hb, e⟩ | ⟨_, hbad, e⟩ | ⟨hb, ⟨hf, hp⟩, e⟩ <;> cases e.symm.trans h
    · exact .rejected (.busy rfl hb)
    · exact .rejected (.invalidCorr (by rwa [F64.toRat_pos_iff]))
    · exact .completed (.setCorr hb hf hp) rfl
  | turn =>
    rcases execTurn_cases s with ⟨hb, e⟩ | ⟨_, h0, e⟩ | ⟨hb, hn, e⟩ <;> cases e.symm.trans h
    · exact .rejected (.busy rfl hb)
    · exact .rejected (.stepsTooSmall h0)
    · exact .completed (.turn hb hn) rfl
  | setRings =>
    rcases execSetRings_cases s with ⟨hb, e⟩ | ⟨_, h0, e⟩ | ⟨_, _, hfine, e⟩ | ⟨hb, hn, hr, e⟩ <;>
      cases e.symm.trans h
    · exact .rejected (.busy rfl hb)
    · exact .rejected (.invalidRings h0)
    · exact .rejected (.setRings_tooFine hfine)
    · exact .completed (.setRings hb hn hr) rfl
  | setPrerot =>
    rcases execSetPrerot_cases s with ⟨hb, e⟩ | ⟨hb, e⟩ <;> cases e.symm.trans h
    · exact .rejected (.busy rfl hb)
    · exact .completed (.setPrerot hb) rfl
  | setRto =>
    rcases execSetRto_cases s with ⟨hb, e⟩ | ⟨hb, e⟩ <;> cases e.symm.trans h
    · exact .rejected (.busy rfl hb)
    · exact .completed (.setRto hb) rfl
  | sweepStart =>
    rcases execSweepStart_cases s with ⟨hb, e⟩ | ⟨_, hfine, e⟩ | ⟨hb, hr, hp, e⟩ | ⟨hb, hr, hp, e⟩ <;>
      cases e.symm.trans h
    · exact .rejected (.busy rfl hb)
    · exact .rejected (.sweepStart_tooFine hfine)
    · exact .completed (.sweepStart_ring hb hr hp) rfl
    · exact .completed (.sweepStart_prerot hb hr hp) rfl
  | ringDone =>
    rcases execRingDone_cases s with ⟨hq, e⟩ | ⟨hq, e⟩ <;> cases e.symm.trans h
    · exact .completed (.ringDone hq) rfl
    · exact .rejected (.notInRingWait hq)
  | sweepCancel =>
    rcases execSweepCancel_cases s with ⟨hq, e⟩ | ⟨hq, e⟩ | ⟨hq, e⟩ | ⟨hq, e⟩ <;> cases e.symm.trans h
    · exact .rejected (.noSweep hq)
    · exact .completed (.sweepCancel_return hq) rfl
    · exact .completed (.sweepCancel_request hq) rfl
    · exact .completed (.sweepCancel_late hq) rfl
  | ctuXform =>
    rcases execCtuXform_cases s with ⟨hf, e⟩ | ⟨hf, e⟩ <;> cases e.symm.trans h
    · exact .completed (.ctuXform hf) rfl
    · exact .rejected (.ctuNonfinite hf)

/-- No command's work touches CMD_REJECT in IRQ_PEND (60_exceptions R440). -/
theorem CommandEffect.irqPend_cmdReject {s u : State} {i : Instr} (h : CommandEffect s i u) :
    u.host.irqPend.getLsbD 6 = s.host.irqPend.getLsbD 6 := by
  rcases h.irqPend_cases with e | ⟨_, e⟩ | ⟨_, e⟩ <;> rw [e]
  · rw [BitVec.getLsbD_or, IrqSource.getLsbD_ringReq (by decide), Bool.or_false]
  · rw [BitVec.getLsbD_or, IrqSource.getLsbD_sweepDone (by decide), Bool.or_false]

/-- Settles O17: a completion is a command's work and its code, a rejection has one of the causes of
`RejectionCause`. -/
theorem outcomeCodesHaveTheirCauses : Obligations.OutcomeCodesHaveTheirCauses := by
  intro i s t h
  cases exec_ending h with
  | completed he hc =>
    refine ⟨fun _ => ⟨he.err_eq, he.irqPend_cmdReject⟩, fun hrej => ?_⟩
    exact absurd (hc.symm.trans hrej) (by decide)
  | rejected hc =>
    refine ⟨fun hcomp => absurd (hc.isRejection.symm.trans hcomp) (by decide), fun _ => ?_⟩
    have arg0_eq_zero (h0 : s.host.arg0.toNat = 0) : s.host.arg0 = 0 := BitVec.eq_of_toNat_eq h0
    cases hc with
    | busy hi hb => simpa [hi] using State.busyNow_eq_true.1 hb
    | invalidResolution hcode => simpa using hcode
    | invalidSpeed hspeed => simpa using hspeed.imp_left arg0_eq_zero
    | invalidCorr hcorr => simpa [State.argF64] using hcorr
    | stepsTooSmall h0 => simpa using arg0_eq_zero h0
    | invalidRings h0 => simpa using arg0_eq_zero h0
    | setRings_tooFine hfine => simpa using hfine
    | sweepStart_tooFine hfine => simpa using hfine
    | notInRingWait hq => simpa using hq
    | noSweep hq => simpa using hq
    | ctuNonfinite hf => simp [← ctuOperandsFinite_iff, hf]

/-- A dispatch that ends with a rejection code is a rejection on the state with LASTCMD written (60_exceptions R441,
30_encoding R152). -/
theorem dispatchCommand_of_rejection {v : Word} {s t : State} (h : dispatchCommand v s = .next t)
    (hr : t.host.result.isRejection = true) : t = (s.setLastcmd v).reject t.host.result := by
  rcases dispatchCommand_cases v s with ⟨i, _, e⟩ | ⟨_, _, e⟩
  · cases exec_ending (e.symm.trans h) with
    | rejected => rfl
    | completed _ hc => exact absurd (hc.symm.trans hr) (by decide)
  · cases e.symm.trans h
    rfl

/-- Settles O16: what LASTCMD's write and the rejection leave is the state as it was. -/
theorem rejectionChangesOnlyItsRecord : Obligations.RejectionChangesOnlyItsRecord :=
  fun _ _ _ h hr => dispatchCommand_of_rejection h hr

end Sys2Proof.Machine

namespace Sys2Proof.Machine

/-! ## The timeout and a RING_DONE of the same cycle (60_exceptions R448 item 2) -/

/-- A timeout due at the next count is reached by it, also where RTO_CNT saturates (10_state R32). -/
theorem le_rtoCount {rto c : Word} (h : rto.toNat ≤ c.toNat + 1) : rto.toNat ≤ (rtoCount c).toNat := by
  rw [rtoCount]
  split
  · next hmax =>
    have hfit := rto.isLt
    rw [hmax, BitVec.toNat_allOnes]
    omega
  · next hne =>
    have hlt : c.toNat ≠ 2 ^ 32 - 1 := fun hc => hne (BitVec.eq_of_toNat_eq (hc.trans BitVec.toNat_allOnes.symm))
    have hfit := c.isLt
    have hroom : c.toNat + 1 < 2 ^ 32 := by omega
    exact h.trans_eq (BitVec.toNat_add_of_lt (y := 1) hroom).symm

/-- After EnterReturn the sequencer does not wait for a ring (42_sweep_sequencer R328). -/
theorem State.enterReturn_not_ringWait (c : SeqEnd) (s : State) : (s.enterReturn c).ssm.state ≠ .ringWait := by
  rcases s.enterReturn_cases c with ⟨_, e⟩ | ⟨_, e⟩ <;> simp [e]

/-- With the drive idle and the timeout due, the ticks are the timeout (42_sweep_sequencer R332). -/
theorem atBusPhase_of_timeout {s : State} (hq : s.ssm.state = .ringWait) (hidle : s.sdu.state = .idle)
    (hrto : s.ssm.rto ≠ 0) (hdue : s.ssm.rto.toNat ≤ s.ssm.rtoCnt.toNat + 1) :
    s.atBusPhase = (State.countRto { s with inputs := s.inputs.tail }).recordTimeout.enterReturn .timeout := by
  have hdrive : sduTick { s with inputs := s.inputs.tail } = ({ s with inputs := s.inputs.tail }, false) := by
    simp [sduTick, hidle]
  rw [State.atBusPhase, ticks, hdrive]
  exact (ssmTick_of_ringWait (s := { s with inputs := s.inputs.tail }) hq false).trans
    (if_pos ⟨hrto, le_rtoCount hdue⟩)

/-- A RING_DONE that finds the sequencer outside RING_WAIT in the bus phase is rejected (42_sweep_sequencer R325). -/
theorem busPhase_ringDone_rejected {s : State} (hq : s.ssm.state ≠ .ringWait) :
    busPhase (some (.write 0x004 4 0x00000034)) s =
      .next (((s.setReadData none).setLastcmd 0x00000034).reject .notInRingWait) := by
  rw [busPhase_writeCmd]
  exact (dispatchCommand_encode .ringDone _).trans (if_neg hq)

/-- Settles O50: the ticks end RING_WAIT with the timeout's record, so the bus phase rejects RING_DONE; the later
phases keep RESULT, the sequencer and the bits of ERR. -/
theorem timeoutBeatsRingDoneOfTheSameCycle : Obligations.TimeoutBeatsRingDoneOfTheSameCycle := by
  intro s hq hidle hrto hdue hrst hacc
  have hticks := atBusPhase_of_timeout hq hidle hrto hdue
  have hleft : s.atBusPhase.ssm.state ≠ .ringWait := hticks ▸ State.enterReturn_not_ringWait _ _
  have hbus := busPhase_ringDone_rejected hleft
  rw [← hacc] at hbus
  have later := HostQuiet.afterBus s.nextInput.rx
    (((s.atBusPhase.setReadData none).setLastcmd 0x00000034).reject .notInRingWait)
  refine ⟨_, step_of_busPhase hrst hbus, later.result, ?_, ?_, ?_, later.err 0 ?_, later.err 1 ?_⟩
  · simp [afterBus_ssm, hticks]
  · simp [afterBus_ssm, hticks]
  · simp [afterBus_ssm, hticks]
  · simp [ErrBit.bit]
  · simp [hticks, ErrBit.bit]

end Sys2Proof.Machine

namespace Sys2Proof.Machine

/-! ## A cycle with RST asserted (70_reset_and_hazards R490) -/

/-- A reset cycle returns 0 to a read of any address and width. -/
theorem resetCycle_readData_of_read {c : CycleInput} {a : Addr} {size : Nat} (h : c.access = some (.read a size))
    (s : State) : (resetCycle c s).readData = some 0 := by
  simp [resetCycle, h]

/-- Settles O6: the step is a reset cycle, whose elements are the reset values whatever the environment does. -/
theorem resetCycleResetsEverything : Obligations.ResetCycleResetsEverything :=
  fun _ hrst => ⟨_, step_of_reset hrst, rfl, rfl, rfl, rfl, rfl, rfl, rfl, rfl, rfl, rfl, rfl,
    fun _ _ hread => resetCycle_readData_of_read hread _⟩

/-! ## The reset state (70_reset_and_hazards R491) -/

/-- A reset cycle in which the host does nothing leaves the reset state as it is. -/
theorem resetCycle_idle_reset : resetCycle CycleInput.idle State.reset = State.reset := rfl

/-- Settles O54: every reset cycle establishes the invariant. -/
theorem resetMeetsTheInvariant : Obligations.ResetMeetsTheInvariant := by
  rw [Obligations.ResetMeetsTheInvariant, ← resetCycle_idle_reset]
  exact resetCycle_inv CycleInput.idle State.reset

/-- Over zeros the CRC stays 0 when the table maps 0 to 0 (40_packet_validator R202). -/
theorem crc8_replicate_zero {table : List Byte} (h0 : table.getD 0 0 = 0) (n : Nat) :
    crc8 table (List.replicate n 0) = 0 := by
  induction n with
  | zero => rfl
  | succ n ih =>
    rw [List.replicate_succ', crc8_append, ih]
    exact h0

/-- At position 0 ANGLE is +0.0 (41_stepper_drive R271). -/
theorem State.angle_of_pos_zero {s : State} (h : s.sdu.pos = 0) : s.angle = 0 := by
  have hpos : s.sdu.pos.toInt = 0 := (congrArg BitVec.toInt h).trans BitVec.toInt_zero
  rw [State.angle, hpos, zero_mul, zero_mul, rne64_zero]

section EmptyBuffer

/-! ### What the registers show of an empty packet buffer (10_state R51 to R55) -/

variable {s : State}

theorem State.pktByte_of_empty (h : s.pvu.pktbuf = []) (j : Nat) : s.pktByte j = 0 := by
  rw [State.pktByte, h, Memory.read_nil]
  exact ite_self _

theorem State.fHdrWord_of_empty (h : s.pvu.pktbuf = []) : s.fHdrWord = 0 := by
  simp only [State.fHdrWord, State.pktByte_of_empty h]
  rfl

theorem State.field16_of_empty (h : s.pvu.pktbuf = []) (o : Nat) : s.field16 o = 0 := by
  simp only [State.field16, State.pktByte_of_empty h]
  rfl

theorem State.sampleWord_of_empty (h : s.pvu.pktbuf = []) (i : Nat) : s.sampleWord i = 0 := by
  simp only [State.sampleWord, State.pktByte_of_empty h]
  rfl

theorem State.pktbufWord_of_empty (h : s.pvu.pktbuf = []) (k : Nat) : s.pktbufWord k = 0 := by
  simp only [State.pktbufWord, State.pktByte_of_empty h]
  rfl

theorem State.crcCalcWord_of_empty (h : s.pvu.pktbuf = []) (h0 : s.params.crcTable.getD 0 0 = 0) :
    s.crcCalcWord = 0 := by
  have hread (j : Nat) (_ : j < 47) : Memory.read s.pvu.pktbuf j = 0 := by rw [h, Memory.read_nil]; rfl
  rw [State.crcCalcWord_eq hread, List.map_const', crc8_replicate_zero h0]
  rfl

end EmptyBuffer

/-- Settles O7: the elements are those `State.resetWith` lists; the computed registers follow from POS = 0, the
empty packet buffer and entry 0 of the default table. -/
theorem resetLeavesTheListedValues : Obligations.ResetLeavesTheListedValues := by
  have hbuf : State.reset.pvu.pktbuf = [] := rfl
  have hcrc : State.reset.regValue .crcCalc = 0 := State.crcCalcWord_of_empty hbuf rfl
  have hangle : State.reset.angle = 0 := State.angle_of_pos_zero rfl
  have hangleLo : State.reset.regValue .angleLo = 0 := congrArg lo32 hangle
  have hangleHi : State.reset.regValue .angleHi = 0 := congrArg hi32 hangle
  exact ⟨rfl,
    -- the host's registers
    rfl, rfl, rfl, rfl, rfl, rfl, rfl, rfl,
    -- the packet validator
    rfl, Memory.read_nil, rfl, rfl, rfl, rfl, rfl,
    -- the stepper drive
    rfl, rfl, rfl, rfl, rfl, rfl, rfl, rfl, rfl, rfl, rfl, rfl,
    -- the sweep sequencer
    rfl, rfl, rfl, rfl, rfl, rfl, rfl, rfl, rfl, rfl, rfl,
    -- the coordinate transform and the lines
    rfl, rfl,
    -- the computed registers
    rfl, State.resWord_eq _, hcrc, rfl, hangleLo, hangleHi,
    -- the views of the packet buffer
    State.fHdrWord_of_empty hbuf, State.field16_of_empty hbuf 2, State.field16_of_empty hbuf 4,
    State.field16_of_empty hbuf 42, State.field16_of_empty hbuf 44,
    fun i => State.sampleWord_of_empty hbuf i, fun k => State.pktbufWord_of_empty hbuf k⟩

end Sys2Proof.Machine
